-- ==== Sys2Proof/Word.lean ====
section
/-! DEFINITION. The machine's two plain widths (spec/00 R1, R2): a byte of data memory and a 64-bit register value.
The variant's own words are `BitVec w` with `w` 32 or 64; their operators stand in Machine/Functions.lean. -/

namespace Sys2Proof

/-- One byte of the data space (20 R33). -/
abbrev Byte := BitVec 8

/-- One host register value, command word, address operand or length operand (10 R15, 30 R55). -/
abbrev Word64 := BitVec 64

end Sys2Proof
end

