-- ==== Sys2Proof/Syntax.lean ====
section
/-! DEFINITION. The engine's commands and the operations of the agents around it.
`Instr` has one constructor per row of spec/opcode_table.json (30 R56). `CommandWord` is the one format of 30 R50.
`Input` is what a host or the platform does to the engine in one step, with the engine's own turn (45 R210). -/

namespace Sys2Proof

/-- The two variants, selected by VAR (30 R51): 32-bit words (SHA-256) and 64-bit words (SHA-512). -/
inductive Variant where
  | v256
  | v512
  deriving DecidableEq, Repr, Inhabited

/-- The four legal commands (30 R56). None has an operand field (30 R55). -/
inductive Instr where
  /-- `hash.256`: VAR = 0, TERM = 0. -/
  | hash256
  /-- `hash.256.t`: VAR = 0, TERM = 1. -/
  | hash256t
  /-- `hash.512`: VAR = 1, TERM = 0. -/
  | hash512
  /-- `hash.512.t`: VAR = 1, TERM = 1. -/
  | hash512t
  deriving DecidableEq, Repr

/-- The fields of a command word, legal or not (30 R50). -/
structure CommandWord where
  /-- bits 63:10, must be 0 -/
  rsv : BitVec 54
  /-- bit 9: a 0x00 terminator follows the digest (30 R52) -/
  term : Bool
  /-- bit 8: the variant (30 R51) -/
  var : Bool
  /-- bits 7:0: the opcode, 0x01 = HASH (30 R53) -/
  opc : BitVec 8
  deriving DecidableEq, Repr

/-- One step's mover, with what it does (45 R210). A host here is any bus agent but the engine (00 glossary). -/
inductive Input where
  /-- A host reads `width` bits at the host address `addr`. -/
  | regRead (addr : Word64) (width : Nat)
  /-- A host writes `value`, `width` bits wide, at the host address `addr`. -/
  | regWrite (addr : Word64) (width : Nat) (value : Word64)
  /-- A host reads one byte of the data space. -/
  | dataRead (addr : Word64)
  /-- A host writes one byte of the data space. -/
  | dataWrite (addr : Word64) (value : Byte)
  /-- The engine takes its turn: completion while BUSY = 1, else nothing. -/
  | engine
  /-- The platform resets the engine (70 R270). -/
  | reset
  deriving DecidableEq, Repr

end Sys2Proof
end

