-- ==== Sys2Proof/WellFormed.lean ====
section
/-! DEFINITION. Which terms of the syntax are well formed (30 R54, R55). -/

namespace Sys2Proof

/-- The opcode check of 30 R54: HASH is the only opcode (30 R53). -/
def CommandWord.opcodeLegal (c : CommandWord) : Bool := c.opc == 0x01#8

/-- The reserved-field check of 30 R54. -/
def CommandWord.reservedClear (c : CommandWord) : Bool := c.rsv == 0#54

/-- A command word is legal iff both checks pass (30 R54, 45 R213). -/
def CommandWord.wellFormed (c : CommandWord) : Bool := c.opcodeLegal && c.reservedClear

/-- A command carries no immediate or register-number field (30 R55), so every term of `Instr` is well formed. -/
def Instr.wellFormed : Instr → Bool
  | .hash256 => true
  | .hash256t => true
  | .hash512 => true
  | .hash512t => true

end Sys2Proof
end

