-- ==== Sys2Proof/Decode.lean ====
section
/-! DEFINITION. From a command word to its command, and back (30 R50 to R57, 45 R213).
Every command word is 64 bits and arrives whole in one register write (30 R57), so the decoder reads a `Word64`.
It is total: a word that is no command is rejected under the name of the check it fails. -/

namespace Sys2Proof

/-- Why a word is no command (30 R54). -/
inductive DecodeError where
  /-- OPC is one of the reserved values 0x00 and 0x02 to 0xFF. -/
  | reservedOpcode
  /-- Some bit of RSV, bits 63:10, is 1. -/
  | reservedBits
  deriving DecidableEq, Repr

/-- Cut a word into the fields of 30 R50. -/
def CommandWord.ofBits (v : Word64) : CommandWord where
  rsv := v.extractLsb' 10 54
  term := v.getLsbD 9
  var := v.getLsbD 8
  opc := v.extractLsb' 0 8

/-- Lay the fields of 30 R50 out as a word. -/
def CommandWord.toBits (c : CommandWord) : Word64 :=
  c.rsv ++ BitVec.ofBool c.term ++ BitVec.ofBool c.var ++ c.opc

/-- The command that VAR and TERM select among the legal words (30 R56). -/
def instrOf (var term : Bool) : Instr :=
  match var, term with
  | false, false => .hash256
  | false, true => .hash256t
  | true, false => .hash512
  | true, true => .hash512t

/-- Decode an accepted command word (45 R213). -/
def decode (v : Word64) : Except DecodeError Instr :=
  let c := CommandWord.ofBits v
  if !c.opcodeLegal then .error .reservedOpcode
  else if !c.reservedClear then .error .reservedBits
  else .ok (instrOf c.var c.term)

/-- The variant a command selects (30 R51, R56). -/
def Instr.variant : Instr → Variant
  | .hash256 => .v256
  | .hash256t => .v256
  | .hash512 => .v512
  | .hash512t => .v512

/-- Whether a command asks for the terminator (30 R52, R56). -/
def Instr.term : Instr → Bool
  | .hash256 => false
  | .hash256t => true
  | .hash512 => false
  | .hash512t => true

/-- The word of a command, from the fields of 30 R50 and R56. -/
def encode (i : Instr) : Word64 :=
  CommandWord.toBits
    { rsv := 0, term := i.term, var := (match i.variant with | .v256 => false | .v512 => true), opc := 0x01 }

/-- The word a row of the opcode table gives: its `nbits` low bits are those of `w`, every bit above them is 0. -/
def tableWord (nbits w : Nat) : Word64 := BitVec.ofNat 64 (w % 2 ^ nbits)

/-- The command that the decoder reads from a row of the opcode table. A word of more than 64 bits is none (30 R57). -/
def decodeTableWord (nbits w : Nat) : Option Instr :=
  if nbits ≤ 64 then (decode (tableWord nbits w)).toOption else none

end Sys2Proof
end

