-- ==== Sys2Proof/Machine/Functions.lean ====
section
/-! DEFINITION. The datapath's operators on `w`-bit words (spec/40 sections 2 to 4): the modular adder, rotation and
shift, Ch and Maj, and the two families of sigma functions. None raises a flag or an error (10 R23). -/

namespace Sys2Proof.Machine

/-- The modular adder (40 R102): the carry out of the top bit is discarded. -/
def modAdd {w : Nat} (x y : BitVec w) : BitVec w := BitVec.ofNat w (x.toNat + y.toNat)

/-- A sum of several operands, grouped from the left (40 R103). -/
def modSum {w : Nat} : List (BitVec w) → BitVec w
  | [] => 0#w
  | x :: xs => xs.foldl modAdd x

/-- Right rotation, for `0 < n < w` (40 R104). -/
def rotr {w : Nat} (n : Nat) (x : BitVec w) : BitVec w := (x >>> n) ||| (x <<< (w - n))

/-- Logical right shift (40 R105). -/
def shr {w : Nat} (n : Nat) (x : BitVec w) : BitVec w := x >>> n

/-- Choose (40 R106). -/
def ch {w : Nat} (x y z : BitVec w) : BitVec w := (x &&& y) ||| (~~~x &&& z)

/-- Majority (40 R107). -/
def maj {w : Nat} (x y z : BitVec w) : BitVec w := (x &&& y) ||| (x &&& z) ||| (y &&& z)

/-- Three rotation or shift amounts, one row entry of 40 R110. -/
structure Amounts where
  n1 : Nat
  n2 : Nat
  n3 : Nat
  deriving DecidableEq, Repr

/-- Big sigma: the exclusive OR of three rotations (40 R108). -/
def bigSigma {w : Nat} (n : Amounts) (x : BitVec w) : BitVec w := rotr n.n1 x ^^^ rotr n.n2 x ^^^ rotr n.n3 x

/-- Small sigma: the exclusive OR of two rotations and a shift (40 R109). -/
def smallSigma {w : Nat} (n : Amounts) (x : BitVec w) : BitVec w := rotr n.n1 x ^^^ rotr n.n2 x ^^^ shr n.n3 x

end Sys2Proof.Machine
end

