-- ==== Sys2Proof/Machine/Types.lean ====
section
/-! DEFINITION. The parts the state is made of: error codes (60 R240), STATUS (10 R17), the engine's internal state
(10 R10 to R13, R16), what the engine answers a host, and the platform's parameters (00 section 4). Plain data only. -/

namespace Sys2Proof.Machine

/-- The error codes the engine produces (60 R240). Codes 8 to 15 are never produced, so they are left out (93 U15). -/
inductive ErrCode where
  | none
  | lengthOverflow
  | bufferTooSmall
  | allocationFailure
  | illegalCommand
  | msgRegionWrap
  | outRegionWrap
  | busError
  deriving DecidableEq, Repr, Inhabited

/-- What a failing check of 45 R215 raises: its code and the value for ERR_INFO (60 R241, R244). -/
structure ErrorReport where
  code : ErrCode
  info : Word64
  deriving DecidableEq, Repr

/-- The fields of STATUS that have storage (10 R17). The reserved bits read 0 and have none. -/
structure Status where
  busy : Bool
  done : Bool
  ovr : Bool
  err : ErrCode
  deriving DecidableEq, Repr, Inhabited

/-- The operands latched at acceptance (10 R16, 45 R212). -/
structure Snapshot where
  cmd : Word64
  msgBase : Word64
  msgLen : Word64
  outBase : Word64
  outCap : Word64
  deriving DecidableEq, Repr, Inhabited

/-- The chaining state, or a column of initial values: `H[0]` to `H[7]` (10 R10, 40 R122). -/
structure Chain (w : Nat) where
  h0 : BitVec w
  h1 : BitVec w
  h2 : BitVec w
  h3 : BitVec w
  h4 : BitVec w
  h5 : BitVec w
  h6 : BitVec w
  h7 : BitVec w
  deriving DecidableEq, Repr, Inhabited

/-- The eight working variables of a block (10 R11). -/
structure Work (w : Nat) where
  a : BitVec w
  b : BitVec w
  c : BitVec w
  d : BitVec w
  e : BitVec w
  f : BitVec w
  g : BitVec w
  h : BitVec w
  deriving DecidableEq, Repr, Inhabited

/-- The engine's word storage at one width: `H` (10 R10), `a..h` (10 R11) and `W` (10 R13). -/
structure Datapath (w : Nat) where
  chain : Chain w
  work : Work w
  sched : List (BitVec w)
  deriving DecidableEq, Repr, Inhabited

/-- The word storage at the width of the variant that last used it. -/
inductive WordStore where
  | w32 (d : Datapath 32)
  | w64 (d : Datapath 64)
  deriving DecidableEq, Repr, Inhabited

/-- The sequencer's phases, in the order of 45 R215. DESIGN CHOICE: 10 R12 says only "a phase" (log 17). -/
inductive Phase where
  | idle
  | pad
  | schedule
  | rounds
  | serialize
  deriving DecidableEq, Repr, Inhabited

/-- The sequencer: a phase, a block index `i`, a schedule index `t` and a round index `r` (10 R12). -/
structure Sequencer where
  phase : Phase
  block : Nat
  t : Nat
  r : Nat
  deriving DecidableEq, Repr, Inhabited

/-- The engine's internal state besides the snapshot: `L`, `k`, `P` (10 R16), the sequencer (10 R12) and the word
storage (10 R10, R11, R13). No register exposes it (10 R22). -/
structure Context where
  bitLen : Nat
  zeroPad : Nat
  padded : List Byte
  seq : Sequencer
  words : WordStore
  deriving DecidableEq, Repr, Inhabited

/-- What the last host read returned: a register's 64 bits or one data byte (45 R210). -/
inductive Reply where
  | word (v : Word64)
  | byte (b : Byte)
  deriving DecidableEq, Repr

/-- The direction of an engine access to the data space (20 R37). -/
inductive Dir where
  | read
  | write
  deriving DecidableEq, Repr

/-- A run of data addresses, `lo` up to but not including `hi`, on which the bus rejects one direction (20 R37). -/
structure Window where
  lo : Nat
  hi : Nat
  dir : Dir
  deriving DecidableEq, Repr

/-- The platform's parameters that a model takes as an argument (00 section 4): PAD_CAPACITY, with `none` for
unbounded (41 R136); `admits`, as the list of the windows it rejects (20 R37); REG_BASE (10 R15). DESIGN CHOICE: no step
changes them (logs 4 and 5). -/
structure Platform where
  padCapacity : Option Nat
  rejects : List Window
  regBase : Word64
  deriving DecidableEq, Repr

end Sys2Proof.Machine
end

