-- ==== Sys2Proof/Machine/Tables.lean ====
section
/-! DEFINITION. The parameter set of the two variants (spec/40): sizes (R100), rotation and shift amounts (R110),
round constants (R120, R121) and initial chaining values (R122). Constants: no step reads them out or changes them
(R123). The values are those of the rules, which the spec marks as general knowledge (log 18). -/

namespace Sys2Proof.Machine

/-- The word width `w` in bits (40 R100). -/
def wordBits : Variant → Nat
  | .v256 => 32
  | .v512 => 64

/-- The block size `B` in bits (40 R100). -/
def blockBits : Variant → Nat
  | .v256 => 512
  | .v512 => 1024

/-- The size `F` of the length field in bits (40 R100). -/
def lengthBits : Variant → Nat
  | .v256 => 64
  | .v512 => 128

/-- A variant's tables at its word width: round count `R`, amounts, `K` and `IV` (40 R100). -/
structure Params (w : Nat) where
  rounds : Nat
  bigSigma0 : Amounts
  bigSigma1 : Amounts
  smallSigma0 : Amounts
  smallSigma1 : Amounts
  k : List (BitVec w)
  iv : Chain w

/-- One line of the spec's table of round constants, which prints the table in four columns (40 R120, R121). -/
structure ConstantRow (w : Nat) where
  first : BitVec w
  second : BitVec w
  third : BitVec w
  fourth : BitVec w
  deriving DecidableEq, Repr

/-- The table that the lines print: `r` runs down the first column, then down the second, and so on (40 R120, R121). -/
def readByColumns {w : Nat} (rows : List (ConstantRow w)) : List (BitVec w) :=
  rows.map (·.first) ++ rows.map (·.second) ++ rows.map (·.third) ++ rows.map (·.fourth)

/-- The sixteen lines of 40 R120: line `i` holds `K[i]`, `K[i + 16]`, `K[i + 32]` and `K[i + 48]`. -/
def k256Rows : List (ConstantRow 32) :=
  [⟨0x428a2f98, 0xe49b69c1, 0x27b70a85, 0x19a4c116⟩,
   ⟨0x71374491, 0xefbe4786, 0x2e1b2138, 0x1e376c08⟩,
   ⟨0xb5c0fbcf, 0x0fc19dc6, 0x4d2c6dfc, 0x2748774c⟩,
   ⟨0xe9b5dba5, 0x240ca1cc, 0x53380d13, 0x34b0bcb5⟩,
   ⟨0x3956c25b, 0x2de92c6f, 0x650a7354, 0x391c0cb3⟩,
   ⟨0x59f111f1, 0x4a7484aa, 0x766a0abb, 0x4ed8aa4a⟩,
   ⟨0x923f82a4, 0x5cb0a9dc, 0x81c2c92e, 0x5b9cca4f⟩,
   ⟨0xab1c5ed5, 0x76f988da, 0x92722c85, 0x682e6ff3⟩,
   ⟨0xd807aa98, 0x983e5152, 0xa2bfe8a1, 0x748f82ee⟩,
   ⟨0x12835b01, 0xa831c66d, 0xa81a664b, 0x78a5636f⟩,
   ⟨0x243185be, 0xb00327c8, 0xc24b8b70, 0x84c87814⟩,
   ⟨0x550c7dc3, 0xbf597fc7, 0xc76c51a3, 0x8cc70208⟩,
   ⟨0x72be5d74, 0xc6e00bf3, 0xd192e819, 0x90befffa⟩,
   ⟨0x80deb1fe, 0xd5a79147, 0xd6990624, 0xa4506ceb⟩,
   ⟨0x9bdc06a7, 0x06ca6351, 0xf40e3585, 0xbef9a3f7⟩,
   ⟨0xc19bf174, 0x14292967, 0x106aa070, 0xc67178f2⟩]

/-- The round-constant table for VAR = 0 (40 R120). -/
def k256 : List (BitVec 32) := readByColumns k256Rows

/-- Lines 0 to 9 of 40 R121: line `i` holds `K[i]`, `K[i + 20]`, `K[i + 40]` and `K[i + 60]`. -/
def k512RowsAt0 : List (ConstantRow 64) :=
  [⟨0x428a2f98d728ae22, 0x2de92c6f592b0275, 0xa2bfe8a14cf10364, 0x90befffa23631e28⟩,
   ⟨0x7137449123ef65cd, 0x4a7484aa6ea6e483, 0xa81a664bbc423001, 0xa4506cebde82bde9⟩,
   ⟨0xb5c0fbcfec4d3b2f, 0x5cb0a9dcbd41fbd4, 0xc24b8b70d0f89791, 0xbef9a3f7b2c67915⟩,
   ⟨0xe9b5dba58189dbbc, 0x76f988da831153b5, 0xc76c51a30654be30, 0xc67178f2e372532b⟩,
   ⟨0x3956c25bf348b538, 0x983e5152ee66dfab, 0xd192e819d6ef5218, 0xca273eceea26619c⟩,
   ⟨0x59f111f1b605d019, 0xa831c66d2db43210, 0xd69906245565a910, 0xd186b8c721c0c207⟩,
   ⟨0x923f82a4af194f9b, 0xb00327c898fb213f, 0xf40e35855771202a, 0xeada7dd6cde0eb1e⟩,
   ⟨0xab1c5ed5da6d8118, 0xbf597fc7beef0ee4, 0x106aa07032bbd1b8, 0xf57d4f7fee6ed178⟩,
   ⟨0xd807aa98a3030242, 0xc6e00bf33da88fc2, 0x19a4c116b8d2d0c8, 0x06f067aa72176fba⟩,
   ⟨0x12835b0145706fbe, 0xd5a79147930aa725, 0x1e376c085141ab53, 0x0a637dc5a2c898a6⟩]

/-- Lines 10 to 19 of 40 R121. -/
def k512RowsAt10 : List (ConstantRow 64) :=
  [⟨0x243185be4ee4b28c, 0x06ca6351e003826f, 0x2748774cdf8eeb99, 0x113f9804bef90dae⟩,
   ⟨0x550c7dc3d5ffb4e2, 0x142929670a0e6e70, 0x34b0bcb5e19b48a8, 0x1b710b35131c471b⟩,
   ⟨0x72be5d74f27b896f, 0x27b70a8546d22ffc, 0x391c0cb3c5c95a63, 0x28db77f523047d84⟩,
   ⟨0x80deb1fe3b1696b1, 0x2e1b21385c26c926, 0x4ed8aa4ae3418acb, 0x32caab7b40c72493⟩,
   ⟨0x9bdc06a725c71235, 0x4d2c6dfc5ac42aed, 0x5b9cca4f7763e373, 0x3c9ebe0a15c9bebc⟩,
   ⟨0xc19bf174cf692694, 0x53380d139d95b3df, 0x682e6ff3d6b2b8a3, 0x431d67c49c100d4c⟩,
   ⟨0xe49b69c19ef14ad2, 0x650a73548baf63de, 0x748f82ee5defb2fc, 0x4cc5d4becb3e42b6⟩,
   ⟨0xefbe4786384f25e3, 0x766a0abb3c77b2a8, 0x78a5636f43172f60, 0x597f299cfc657e2a⟩,
   ⟨0x0fc19dc68b8cd5b5, 0x81c2c92e47edaee6, 0x84c87814a1f0ab72, 0x5fcb6fab3ad6faec⟩,
   ⟨0x240ca1cc77ac9c65, 0x92722c851482353b, 0x8cc702081a6439ec, 0x6c44198c4a475817⟩]

/-- The round-constant table for VAR = 1 (40 R121). -/
def k512 : List (BitVec 64) := readByColumns (k512RowsAt0 ++ k512RowsAt10)

/-- The initial chaining values for VAR = 0 (40 R122). -/
def iv256 : Chain 32 where
  h0 := 0x6a09e667
  h1 := 0xbb67ae85
  h2 := 0x3c6ef372
  h3 := 0xa54ff53a
  h4 := 0x510e527f
  h5 := 0x9b05688c
  h6 := 0x1f83d9ab
  h7 := 0x5be0cd19

/-- The initial chaining values for VAR = 1 (40 R122). -/
def iv512 : Chain 64 where
  h0 := 0x6a09e667f3bcc908
  h1 := 0xbb67ae8584caa73b
  h2 := 0x3c6ef372fe94f82b
  h3 := 0xa54ff53a5f1d36f1
  h4 := 0x510e527fade682d1
  h5 := 0x9b05688c2b3e6c1f
  h6 := 0x1f83d9abfb41bd6b
  h7 := 0x5be0cd19137e2179

/-- The parameter set of VAR = 0 (40 R100, R110). -/
def params256 : Params 32 where
  rounds := 64
  bigSigma0 := ⟨2, 13, 22⟩
  bigSigma1 := ⟨6, 11, 25⟩
  smallSigma0 := ⟨7, 18, 3⟩
  smallSigma1 := ⟨17, 19, 10⟩
  k := k256
  iv := iv256

/-- The parameter set of VAR = 1 (40 R100, R110). -/
def params512 : Params 64 where
  rounds := 80
  bigSigma0 := ⟨28, 34, 39⟩
  bigSigma1 := ⟨14, 18, 41⟩
  smallSigma0 := ⟨1, 8, 7⟩
  smallSigma1 := ⟨19, 61, 6⟩
  k := k512
  iv := iv512

end Sys2Proof.Machine
end

