-- ==== Sys2Proof/Machine/Padder.lean ====
section
/-! DEFINITION. The padder (spec/41, 30 R60): the bit length, the zero-padding count, the padded length and the padded
buffer. Lengths are exact integers; none of them wraps (45 R215). -/

namespace Sys2Proof.Machine

/-- The message's length in bits, `L` (41 R131). -/
def bitLength (n : Nat) : Nat := 8 * n

/-- The zero-padding count, `k = (B - F - 1 - L) mod B` over the integers (41 R133). -/
def zeroPadding (v : Variant) (n : Nat) : Nat :=
  (((blockBits v : Int) - lengthBits v - 1 - bitLength n) % blockBits v).toNat

/-- The padded buffer's length in bytes (41 R135). -/
def paddedLength (v : Variant) (n : Nat) : Nat := n + 1 + zeroPadding v n / 8 + lengthBits v / 8

/-- The `n`-byte big-endian encoding of an integer (00 R4). -/
def bigEndian (n x : Nat) : List Byte :=
  (List.range n).map fun i => BitVec.ofNat 8 (x >>> (8 * (n - 1 - i)))

/-- `n` bytes of 0x00 (00 R4). -/
def zeroBytes (n : Nat) : List Byte := List.replicate n 0x00

/-- The padded buffer `P` of a message (41 R134; layout 30 R60). -/
def pad (v : Variant) (msg : List Byte) : List Byte :=
  msg ++ [0x80] ++ zeroBytes (zeroPadding v msg.length / 8) ++ bigEndian (lengthBits v / 8) (bitLength msg.length)

end Sys2Proof.Machine
end

