-- ==== Sys2Proof/Machine/Scheduler.lean ====
section
/-! DEFINITION. The block scheduler (spec/42): block split, big-endian word unpacker, schedule expander. It has no
failure modes (42 R155). -/

namespace Sys2Proof.Machine

/-- The bytes of `s` from `i * len` up to, not including, `(i + 1) * len`. -/
def piece (len i : Nat) (s : List Byte) : List Byte := (s.drop (i * len)).take len

/-- The block split: `P` cut into `len(P) / (B/8)` blocks, in order (42 R150). -/
def blocks (v : Variant) (p : List Byte) : List (List Byte) :=
  (List.range (p.length / (blockBits v / 8))).map fun i => piece (blockBits v / 8) i p

/-- The integer a byte sequence encodes, first byte most significant (00 R4). -/
def fromBigEndian (s : List Byte) : Nat := s.foldl (fun x b => 256 * x + b.toNat) 0

/-- The first 16 schedule words, unpacked big-endian from a block (42 R151). -/
def unpack (w : Nat) (blk : List Byte) : List (BitVec w) :=
  (List.range 16).map fun j => BitVec.ofNat w (fromBigEndian (piece (w / 8) j blk))

/-- Schedule word `t` from the words before it (42 R152). -/
def nextWord {w : Nat} (T : Params w) (t : Nat) (ws : List (BitVec w)) : BitVec w :=
  modSum [smallSigma T.smallSigma1 (ws.getD (t - 2) 0), ws.getD (t - 7) 0,
    smallSigma T.smallSigma0 (ws.getD (t - 15) 0), ws.getD (t - 16) 0]

/-- The expander: `n` more words, one at a time in increasing order of `t` (42 R152, R153). -/
def expand {w : Nat} (T : Params w) : Nat → List (BitVec w) → List (BitVec w)
  | 0, ws => ws
  | n + 1, ws => expand T n (ws ++ [nextWord T ws.length ws])

/-- The message schedule of a block, from that block alone (42 R151, R152, R154). -/
def schedule {w : Nat} (T : Params w) (blk : List Byte) : List (BitVec w) :=
  expand T (T.rounds - 16) (unpack w blk)

end Sys2Proof.Machine
end

