-- ==== Sys2Proof/Machine/Compression.lean ====
section
/-! DEFINITION. The compression engine (spec/43): rounds, fold and chaining over the blocks. It "has no failure modes"
(43 R177). -/

namespace Sys2Proof.Machine

/-- Working-variable initialisation: `a` takes `H[0]`, and so on in order (43 R171). -/
def Work.ofChain {w : Nat} (c : Chain w) : Work w where
  a := c.h0
  b := c.h1
  c := c.h2
  d := c.h3
  e := c.h4
  f := c.h5
  g := c.h6
  h := c.h7

/-- `T1` of a round, from its round constant and schedule word (43 R172). -/
def roundT1 {w : Nat} (T : Params w) (v : Work w) (k x : BitVec w) : BitVec w :=
  modSum [v.h, bigSigma T.bigSigma1 v.e, ch v.e v.f v.g, k, x]

/-- `T2` of a round (43 R172). -/
def roundT2 {w : Nat} (T : Params w) (v : Work w) : BitVec w :=
  modAdd (bigSigma T.bigSigma0 v.a) (maj v.a v.b v.c)

/-- One round: the eight new values, all from the old ones (43 R172, R173). -/
def roundStep {w : Nat} (T : Params w) (v : Work w) (k x : BitVec w) : Work w where
  a := modAdd (roundT1 T v k x) (roundT2 T v)
  b := v.a
  c := v.b
  d := v.c
  e := modAdd v.d (roundT1 T v k x)
  f := v.e
  g := v.f
  h := v.g

/-- The rounds of a block in order, round `r` reading `K[r]` and `W[r]` (43 R174). -/
def runRounds {w : Nat} (T : Params w) (ws : List (BitVec w)) (v : Work w) : Work w :=
  (T.k.zip ws).foldl (fun v kx => roundStep T v kx.1 kx.2) v

/-- The fold: the working variables added elementwise into the chaining state (43 R175). -/
def Chain.fold {w : Nat} (c : Chain w) (v : Work w) : Chain w where
  h0 := modAdd c.h0 v.a
  h1 := modAdd c.h1 v.b
  h2 := modAdd c.h2 v.c
  h3 := modAdd c.h3 v.d
  h4 := modAdd c.h4 v.e
  h5 := modAdd c.h5 v.f
  h6 := modAdd c.h6 v.g
  h7 := modAdd c.h7 v.h

/-- The word storage at the start of a HASH command: `H` holds `IV` (43 R170). The working variables and the schedule
are written from `H` and the block before anything reads them (43 R171, 42 R154). -/
def Datapath.start {w : Nat} (T : Params w) : Datapath w where
  chain := T.iv
  work := Work.ofChain T.iv
  sched := []

/-- One block's work: fill `W`, initialise `a..h`, run the rounds, fold (43 R176). -/
def Datapath.block {w : Nat} (T : Params w) (d : Datapath w) (blk : List Byte) : Datapath w :=
  let ws := schedule T blk
  let v := runRounds T ws (Work.ofChain d.chain)
  { chain := d.chain.fold v, work := v, sched := ws }

/-- The Merkle-Damgard iteration over the blocks, in order (43 R176, R178). -/
def Datapath.run {w : Nat} (T : Params w) (blks : List (List Byte)) : Datapath w :=
  blks.foldl (Datapath.block T) (Datapath.start T)

/-- The word storage after the last block of a message of the given variant (43 R178). -/
def WordStore.run (v : Variant) (blks : List (List Byte)) : WordStore :=
  match v with
  | .v256 => .w32 (Datapath.run params256 blks)
  | .v512 => .w64 (Datapath.run params512 blks)

end Sys2Proof.Machine
end

