-- ==== Sys2Proof/Machine/Digest.lean ====
section
/-! DEFINITION. The digest serializer (spec/44, 30 R61): lowercase hexadecimal, most significant nibble first, words in
state order, with the terminator where TERM asks for it. -/

namespace Sys2Proof.Machine

/-- The ASCII code of a nibble's lowercase hexadecimal character (44 R191). -/
def hexChar (d : BitVec 4) : Byte :=
  if d.toNat < 10 then BitVec.ofNat 8 (0x30 + d.toNat) else BitVec.ofNat 8 (0x61 + (d.toNat - 10))

/-- A word's `w/4` characters (44 R192). -/
def render {w : Nat} (x : BitVec w) : List Byte :=
  (List.range (w / 4)).map fun m => hexChar (x.extractLsb' (w - 4 - 4 * m) 4)

/-- The digest string of a final chaining state (44 R193). -/
def Chain.text {w : Nat} (c : Chain w) : List Byte :=
  render c.h0 ++ render c.h1 ++ render c.h2 ++ render c.h3 ++
    render c.h4 ++ render c.h5 ++ render c.h6 ++ render c.h7

/-- The digest string read from the engine's word storage (44 R190). -/
def WordStore.text : WordStore → List Byte
  | .w32 d => d.chain.text
  | .w64 d => d.chain.text

/-- The terminator bytes that TERM asks for (30 R52, 44 R194). -/
def terminator : Bool → List Byte
  | false => []
  | true => [0x00]

/-- The number of digest characters, `D = 2w` (44 R193). -/
def digestLength (v : Variant) : Nat := 8 * (wordBits v / 4)

/-- The number of output bytes, `need` (44 R194). -/
def need (v : Variant) (term : Bool) : Nat := digestLength v + (terminator term).length

end Sys2Proof.Machine
end

