-- ==== Sys2Proof/Config.lean ====
section
/-! DEFINITION. The free values: what the spec leaves unspecified after a step that goes on (93 U2 to U5).
Each is an opaque constant applied to the draw counter of the state (log 9), so nothing in Lean can find a value of
it. What an implementation fixes (PAD_CAPACITY, `admits`, REG_BASE) is `Machine.Platform`, plain data in the state,
so that every statement holds for every platform (log 4). -/

namespace Sys2Proof

/-- The snapshot's leftover after a completion or a reset (10 R22, 70 R270; log 8). -/
opaque Config.freeSnapshot : Nat → Machine.Snapshot

/-- The rest of the internal state's leftover after a completion or a reset (10 R22, 70 R270; log 8). -/
opaque Config.freeContext : Nat → Machine.Context

/-- A free byte for a draw and a data address: an early host read (70 R274; log 11), a byte left by an abandoned
command (70 R271; log 13), a byte of a raced command's output region (70 R275; log 12). -/
opaque Config.freeByte : Nat → Nat → Byte

/-- The error code a raced command reports (70 R275; log 12). -/
opaque Config.freeErr : Nat → Machine.ErrCode

/-- The ERR_INFO value a raced command reports (70 R275; log 12). -/
opaque Config.freeInfo : Nat → Word64

end Sys2Proof
end

