-- ==== Sys2Proof/Machine/State.lean ====
section
/-! DEFINITION. The machine's state, why a step can stop, and the state right after reset (70 R270). -/

namespace Sys2Proof.Machine

/-- Data memory: (address, byte) pairs, addresses strictly rising, no entry equal to what an unlisted byte reads as. -/
abbrev Memory := List Host.Cell

/-- The model's faults. -/
inductive Fault where
  /-- A host wrote a byte of the running command's message or output region (70 R275, 60 R248). Raised by
  `hostDataWrite`, which RECORDS it in `State.recorded`, where it stays for ever, and goes on with the command's result
  free. No step answers `Outcome.fault`. Safe: it allows every result the spec allows (log 12). -/
  | hostRace
  deriving DecidableEq, Repr

/-- The model's refusals. -/
inductive Refusal where
  /-- An instruction without a meaning, by its mnemonic. Raised by no arm of `exec`. Safe. -/
  | notModelled (mnemonic : String)
  /-- A register access that is not a whole 64-bit access at an 8-byte-aligned offset (20 R35). Raised by
  `hostRegRead` and `hostRegWrite`. Safe: the spec has no step here. -/
  | partialRegisterAccess
  /-- A host access offered to the register port at an address outside the 0x100-byte register block (10 R15). Raised
  by `hostRegRead` and `hostRegWrite`. Safe: it is no access to the engine (log 14). -/
  | outsideRegisterBlock
  deriving DecidableEq, Repr

/-- Everything the spec gives the machine, and the model's own fields after it. -/
structure State where
  /-- STATUS (10 R17) -/
  status : Status
  /-- ERR_INFO (10 R20) -/
  errInfo : Word64
  /-- MSG_BASE (10 R19) -/
  msgBase : Word64
  /-- MSG_LEN (10 R19) -/
  msgLen : Word64
  /-- OUT_BASE (10 R19) -/
  outBase : Word64
  /-- OUT_CAP (10 R19) -/
  outCap : Word64
  /-- the snapshot `S` (10 R16) -/
  snap : Snapshot
  /-- the rest of the internal state (10 R10 to R13, R16) -/
  ctx : Context
  /-- the data space (20 R30) -/
  mem : Memory
  /-- the HostRace mark, never cleared (60 R248, 70 R275; its start: log 23) -/
  recorded : Option Fault
  /-- the platform's parameters (00 section 4) -/
  platform : Platform
  /-- the model's own: the running command was raced (70 R275; log 12) -/
  raced : Bool
  /-- the model's own: what the last host read returned (log 10) -/
  reply : Option Reply
  /-- the model's own: the moves still to come, oldest first (log 2) -/
  inputs : List Input
  /-- the model's own: how many free values were drawn (log 9) -/
  draws : Nat
  deriving DecidableEq, Repr

/-- STATUS after reset: 0 (70 R270). -/
def Status.reset : Status := { busy := false, done := false, ovr := false, err := .none }

/-- The snapshot of `State.reset`. Unspecified by 70 R270; DESIGN CHOICE all zero (log 7). -/
def Snapshot.reset : Snapshot := { cmd := 0, msgBase := 0, msgLen := 0, outBase := 0, outCap := 0 }

/-- The rest of the internal state of `State.reset`. Unspecified by 70 R270; DESIGN CHOICE zero and empty (log 7). -/
def Context.reset : Context where
  bitLen := 0
  zeroPad := 0
  padded := []
  seq := { phase := .idle, block := 0, t := 0, r := 0 }
  words := .w32
    { chain := { h0 := 0, h1 := 0, h2 := 0, h3 := 0, h4 := 0, h5 := 0, h6 := 0, h7 := 0 }
      work := { a := 0, b := 0, c := 0, d := 0, e := 0, f := 0, g := 0, h := 0 }
      sched := [] }

/-- The platform of 95 section 3: unbounded padding, every access admitted. DESIGN CHOICE, with REG_BASE 0 (log 4). -/
def Platform.reset : Platform := { padCapacity := none, rejects := [], regBase := 0 }

/-- The machine right after reset (70 R270). R270 gives the HostRace mark no value to start from and says only that reset
does not clear it: DESIGN CHOICE, `recorded` starts with none (log 23). -/
def State.reset : State where
  status := Status.reset
  errInfo := 0
  msgBase := 0
  msgLen := 0
  outBase := 0
  outCap := 0
  snap := Snapshot.reset
  ctx := Context.reset
  mem := []
  recorded := none
  platform := Platform.reset
  raced := false
  reply := none
  inputs := []
  draws := 0

end Sys2Proof.Machine
end

