-- ==== Sys2Proof/Machine/Flags.lean ====
section
/-! DEFINITION. The STATUS flags (10 R17): the word a host reads, and how each event sets and clears the flags. The
engine has no condition code, carry or overflow flag (10 R23). -/

namespace Sys2Proof.Machine

/-- The number of an error code (60 R240). -/
def ErrCode.number : ErrCode → BitVec 4
  | .none => 0
  | .lengthOverflow => 1
  | .bufferTooSmall => 2
  | .allocationFailure => 3
  | .illegalCommand => 4
  | .msgRegionWrap => 5
  | .outRegionWrap => 6
  | .busError => 7

/-- STATUS as a host reads it: ERR in bits 7:4, OVR in bit 2, DONE in bit 1, BUSY in bit 0, every other bit 0 (10 R17). -/
def Status.word (f : Status) : Word64 :=
  0#56 ++ f.err.number ++ 0#1 ++ BitVec.ofBool f.ovr ++ BitVec.ofBool f.done ++ BitVec.ofBool f.busy

/-- The flags at acceptance (45 R212). -/
def Status.accepted (_ : Status) : Status := { busy := true, done := false, ovr := false, err := .none }

/-- The flags after a CMD write that was dropped because BUSY was 1 (45 R211). -/
def Status.overrun (f : Status) : Status := { f with ovr := true }

/-- The flags at completion; OVR is kept (45 R214). -/
def Status.completed (code : ErrCode) (f : Status) : Status := { f with busy := false, done := true, err := code }

/-- The flags the reset event leaves (70 R270). -/
def Status.afterReset (_ : Status) : Status := { busy := false, done := false, ovr := false, err := .none }

end Sys2Proof.Machine
end

