-- ==== Sys2Proof/Machine/Ops.lean ====
section
/-! DEFINITION. The named operations over data memory and the engine's registers: byte reads and writes, acceptance
(45 R212), completion (45 R214) and raising an error (60 R244). Raising an error is the engine's exception: it saves
the code and the detail and goes nowhere, and there is no return from it (60 R245): the next acceptance clears it. -/

namespace Sys2Proof.Machine

/-- What a byte that nothing has written reads as. DESIGN CHOICE, after the start state of 95 section 3 (log 6). -/
def Memory.unlisted : Byte := 0x00

/-- Read one byte (20 R33). -/
def Memory.read : Memory → Nat → Byte
  | [], _ => Memory.unlisted
  | (k, b) :: m, a => if k = a then b else Memory.read m a

/-- Write one byte, keeping the canonical form: writing what an unlisted byte reads as removes the entry (20 R33). -/
def Memory.write : Memory → Nat → Byte → Memory
  | [], a, b => if b = Memory.unlisted then [] else [(a, b)]
  | (k, c) :: m, a, b =>
    if a < k then if b = Memory.unlisted then (k, c) :: m else (a, b) :: (k, c) :: m
    else if a = k then if b = Memory.unlisted then m else (a, b) :: m
    else (k, c) :: Memory.write m a b

/-- Write bytes at `a`, `a + 1` and so on, in increasing order (44 R196, 45 R220). -/
def Memory.writeBytes : Memory → Nat → List Byte → Memory
  | m, _, [] => m
  | m, a, b :: bs => Memory.writeBytes (m.write a b) (a + 1) bs

/-- Let every byte of `[a, a + len)` that exists hold a free value of draw `n` (70 R271, R275; logs 12 and 13). -/
def Memory.forget (n : Nat) : Memory → Nat → Nat → Memory
  | m, _, 0 => m
  | m, a, len + 1 =>
    Memory.forget n (if a < 2 ^ 64 then m.write a (Config.freeByte n a) else m) (a + 1) len

/-- The canonical form: addresses of the data space (20 R30), strictly rising, and no entry that an unlisted byte
would read as. -/
abbrev Memory.wf (m : Memory) : Prop :=
  m.Pairwise (fun c d => c.1 < d.1) ∧ ∀ c ∈ m, c.1 < 2 ^ 64 ∧ c.2 ≠ Memory.unlisted

/-- The `done` output: its level equals STATUS.DONE at all times (10 R24). -/
def State.doneSignal (s : State) : Bool := s.status.done

/-- The internal state holds unspecified values (10 R22, 70 R270): free values of the next draw (log 8). -/
def State.forgetInternal (s : State) : State :=
  { s with
    snap := Config.freeSnapshot s.draws
    ctx := Config.freeContext s.draws
    draws := s.draws + 1 }

/-- Acceptance of a command word, all at once (45 R212). -/
def State.accept (v : Word64) (s : State) : State :=
  { s with
    snap := { cmd := v, msgBase := s.msgBase, msgLen := s.msgLen, outBase := s.outBase, outCap := s.outCap }
    status := s.status.accepted
    errInfo := 0
    raced := false }

/-- A CMD write while BUSY = 1 is dropped: OVR is set and nothing else changes (45 R211). -/
def State.overrun (s : State) : State := { s with status := s.status.overrun }

/-- The end of a command: STATUS and ERR_INFO take the outcome (45 R214), and the internal state is left unspecified
(10 R22). -/
def State.complete (code : ErrCode) (info : Word64) (s : State) : State :=
  { s with status := s.status.completed code, errInfo := info, raced := false }.forgetInternal

/-- Raising an error (60 R244): the command ends with the error's code and detail, and nothing else is saved. -/
def State.raiseError (e : ErrorReport) (s : State) : State := s.complete e.code e.info

/-- The state with data memory replaced. -/
def State.withMem (m : Memory) (s : State) : State := { s with mem := m }

/-- The state with one more free value drawn (log 9). -/
def State.countDraw (s : State) : State := { s with draws := s.draws + 1 }

/-- The state with the moves still to come replaced. -/
def State.withInputs (xs : List Input) (s : State) : State := { s with inputs := xs }

/-- The state with the answer of a host read. -/
def State.withReply (r : Reply) (s : State) : State := { s with reply := some r }

end Sys2Proof.Machine
end

