-- ==== Sys2Proof/Machine/Operands.lean ====
section
/-! DEFINITION. A command's operands (30 R55): the message and output regions of the snapshot (00 glossary), whether a
region wraps (20 R38), which of its bytes the bus rejects (20 R37), and the message's bytes (41 R130). Address sums are
exact integers (20 R38). -/

namespace Sys2Proof.Machine

/-- `admits(addr, dir)`: the platform's bus completes an engine access to the byte (20 R37). -/
def Platform.admits (p : Platform) (a : Nat) (dir : Dir) : Bool :=
  !p.rejects.any fun x => x.dir == dir && decide (x.lo ≤ a) && decide (a < x.hi)

/-- The least byte of `[base, base + len)` that the bus rejects (45 R215 steps 5 and 8). -/
def Platform.leastRejected (p : Platform) (base len : Nat) (dir : Dir) : Option Nat :=
  ((List.range len).find? fun i => !p.admits (base + i) dir).map (base + ·)

/-- A region of positive length that would pass the top of the data space (20 R38). -/
def wraps (base len : Nat) : Bool := decide (0 < len) && decide (2 ^ 64 < base + len)

/-- Whether a byte lies in `[base, base + len)`. -/
def inRegion (base len a : Nat) : Bool := decide (base ≤ a) && decide (a < base + len)

/-- The length of the snapshot's message region, empty for an illegal command word (70 R275). -/
def Snapshot.messageSize (S : Snapshot) : Nat :=
  match decode S.cmd with
  | .ok _ => S.msgLen.toNat
  | .error _ => 0

/-- The length of the snapshot's output region (00 glossary), empty for an illegal command word (70 R275). -/
def Snapshot.outputSize (S : Snapshot) : Nat :=
  match decode S.cmd with
  | .ok i => need i.variant i.term
  | .error _ => 0

/-- Whether a byte lies in the message region. -/
def Snapshot.inMessage (S : Snapshot) (a : Nat) : Bool := inRegion S.msgBase.toNat S.messageSize a

/-- Whether a byte lies in the output region. -/
def Snapshot.inOutput (S : Snapshot) (a : Nat) : Bool := inRegion S.outBase.toNat S.outputSize a

/-- How many bytes of the output region a reset during the command may leave changed (70 R271). -/
def Snapshot.abandonedSize (S : Snapshot) : Nat :=
  if S.outBase.toNat + S.outputSize ≤ 2 ^ 64 then min S.outCap.toNat S.outputSize else 0

/-- The message `M`, read byte by byte (41 R130). -/
def State.message (s : State) : List Byte :=
  (List.range s.snap.msgLen.toNat).map fun i => s.mem.read (s.snap.msgBase.toNat + i)

end Sys2Proof.Machine
end

