-- ==== Sys2Proof/Machine/Execute.lean ====
section
/-! DEFINITION. Execute and completion (45 R214, R215): the checks in their order, the hash, the output. -/

namespace Sys2Proof.Machine

/-- Step 2, length overflow (41 R132). -/
def checkLength (v : Variant) (S : Snapshot) : Option ErrorReport :=
  if 2 ^ lengthBits v ≤ bitLength S.msgLen.toNat then some ⟨.lengthOverflow, S.msgLen⟩ else none

/-- Step 3, allocation (41 R136). -/
def checkCapacity (p : Platform) (v : Variant) (S : Snapshot) : Option ErrorReport :=
  match p.padCapacity with
  | none => none
  | some c => if c < paddedLength v S.msgLen.toNat then some ⟨.allocationFailure, S.msgLen⟩ else none

/-- Step 4, message region wrap (20 R38). -/
def checkMsgWrap (S : Snapshot) : Option ErrorReport :=
  if wraps S.msgBase.toNat S.msgLen.toNat then some ⟨.msgRegionWrap, S.msgBase⟩ else none

/-- Step 5, message bus admission (20 R37). -/
def checkMsgBus (p : Platform) (S : Snapshot) : Option ErrorReport :=
  (p.leastRejected S.msgBase.toNat S.msgLen.toNat .read).map fun a => ⟨.busError, BitVec.ofNat 64 a⟩

/-- Step 6, output capacity (44 R195). -/
def checkOutCap (v : Variant) (term : Bool) (S : Snapshot) : Option ErrorReport :=
  if S.outCap.toNat < need v term then some ⟨.bufferTooSmall, BitVec.ofNat 64 (need v term)⟩ else none

/-- Step 7, output region wrap (20 R38). -/
def checkOutWrap (v : Variant) (term : Bool) (S : Snapshot) : Option ErrorReport :=
  if wraps S.outBase.toNat (need v term) then some ⟨.outRegionWrap, S.outBase⟩ else none

/-- Step 8, output bus admission (20 R37). -/
def checkOutBus (p : Platform) (v : Variant) (term : Bool) (S : Snapshot) : Option ErrorReport :=
  (p.leastRejected S.outBase.toNat (need v term) .write).map fun a => ⟨.busError, BitVec.ofNat 64 a⟩

/-- The error of the first failing step, 2 to 8 in order (45 R215, 60 R242). Steps 6 to 8 read no memory, so deciding
them before the message is read reports the same error (45 R215; log 19). -/
def firstError (p : Platform) (v : Variant) (term : Bool) (S : Snapshot) : Option ErrorReport :=
  match checkLength v S with
  | some e => some e
  | none =>
  match checkCapacity p v S with
  | some e => some e
  | none =>
  match checkMsgWrap S with
  | some e => some e
  | none =>
  match checkMsgBus p S with
  | some e => some e
  | none =>
  match checkOutCap v term S with
  | some e => some e
  | none =>
  match checkOutWrap v term S with
  | some e => some e
  | none => checkOutBus p v term S

/-- The internal state after the last block of a message: `L`, `k`, `P` (41 R131, R133, R134), the sequencer at its end
(10 R12; log 17) and the words of the last block (43 R178). -/
def Context.hash (v : Variant) (msg : List Byte) : Context where
  bitLen := bitLength msg.length
  zeroPad := zeroPadding v msg.length
  padded := pad v msg
  seq :=
    let r := match v with | .v256 => params256.rounds | .v512 => params512.rounds
    { phase := .serialize, block := (blocks v (pad v msg)).length, t := r, r := r }
  words := WordStore.run v (blocks v (pad v msg))

/-- Read, pad, schedule and compress the message region: no step here can fail (45 R215). -/
def State.hashMessage (v : Variant) (s : State) : State := { s with ctx := Context.hash v s.message }

/-- The output bytes `OUT` of the final chaining state the engine holds (44 R194). -/
def State.outputBytes (term : Bool) (s : State) : List Byte := s.ctx.words.text ++ terminator term

/-- Step 9, write the digest (44 R196). -/
def State.writeOutput (term : Bool) (s : State) : State :=
  s.withMem (s.mem.writeBytes s.snap.outBase.toNat (s.outputBytes term))

/-- Execute (45 R215, from step 2), and completion with its outcome (45 R214). -/
def State.execute (v : Variant) (term : Bool) (s : State) : State :=
  match firstError s.platform v term s.snap with
  | some e => s.raiseError e
  | none => ((s.hashMessage v).writeOutput term).complete .none 0

/-- Completion of a command that a host raced: the result is unconstrained (70 R275). The code, the detail and the
bytes of the output region are free values; the engine still writes no other byte (20 R30; log 12). -/
def State.completeRaced (v : Variant) (term : Bool) (s : State) : State :=
  (s.withMem (Memory.forget s.draws s.mem s.snap.outBase.toNat (need v term))).complete
    (Config.freeErr s.draws) (Config.freeInfo s.draws)

/-- A HASH command of the given variant and terminator, from the snapshot: its one completion step (45 R214). -/
def runHash (v : Variant) (term : Bool) (s : State) : State :=
  if s.raced then s.completeRaced v term else s.execute v term

end Sys2Proof.Machine
end

