-- ==== Sys2Proof/Machine/Hash256.lean ====
section
/-! DEFINITION. The meanings of `hash.256` and `hash.256.t` (45 R216): Execute with VAR = 0. -/

namespace Sys2Proof.Machine

/-- `hash.256`: the 32-bit-word digest of the message region, no terminator (45 R216). -/
def execHash256 (s : State) : Host.Outcome State Fault Refusal := .next (runHash .v256 false s)

/-- `hash.256.t`: the 32-bit-word digest of the message region and a terminator (45 R216). -/
def execHash256t (s : State) : Host.Outcome State Fault Refusal := .next (runHash .v256 true s)

end Sys2Proof.Machine
end

