-- ==== Sys2Proof/Machine/Hash512.lean ====
section
/-! DEFINITION. The meanings of `hash.512` and `hash.512.t` (45 R217): Execute with VAR = 1. -/

namespace Sys2Proof.Machine

/-- `hash.512`: the 64-bit-word digest of the message region, no terminator (45 R217). -/
def execHash512 (s : State) : Host.Outcome State Fault Refusal := .next (runHash .v512 false s)

/-- `hash.512.t`: the 64-bit-word digest of the message region and a terminator (45 R217). -/
def execHash512t (s : State) : Host.Outcome State Fault Refusal := .next (runHash .v512 true s)

end Sys2Proof.Machine
end

