-- ==== Sys2Proof/Machine/Dispatch.lean ====
section
/-! DEFINITION. One arm per command: each calls its meaning (30 R56). -/

namespace Sys2Proof.Machine

def exec (i : Instr) (s : State) : Host.Outcome State Fault Refusal :=
  match i with
  | .hash256 => Sys2Proof.Machine.execHash256 s
  | .hash256t => Sys2Proof.Machine.execHash256t s
  | .hash512 => Sys2Proof.Machine.execHash512 s
  | .hash512t => Sys2Proof.Machine.execHash512t s

end Sys2Proof.Machine
end

