-- ==== Sys2Proof/Machine/HostPort.lean ====
section
/-! DEFINITION. What hosts and the platform do to the engine in one step (45 R210): register reads and writes through
the slave port (10 R15 to R21), data reads and writes (70 R274, R275), and reset (70 R270, R271). -/

namespace Sys2Proof.Machine

/-- The locations of the register block (10 R15). -/
inductive HostReg where
  | cmd
  | status
  | msgBase
  | msgLen
  | outBase
  | outCap
  | errInfo
  | reserved
  deriving DecidableEq, Repr

/-- The register at an aligned offset of the block (10 R15). -/
def regAt (off : Word64) : HostReg :=
  if off = 0x00 then .cmd
  else if off = 0x08 then .status
  else if off = 0x10 then .msgBase
  else if off = 0x18 then .msgLen
  else if off = 0x20 then .outBase
  else if off = 0x28 then .outCap
  else if off = 0x30 then .errInfo
  else .reserved

/-- The register a host access reaches. Only a whole 64-bit access at an 8-byte-aligned offset of the block has a step
(20 R35; log 14). -/
def regSlot (p : Platform) (addr : Word64) (width : Nat) : Except Refusal HostReg :=
  if 0x100 ≤ (addr - p.regBase).toNat then .error .outsideRegisterBlock
  else if width = 64 ∧ (addr - p.regBase).toNat % 8 = 0 then .ok (regAt (addr - p.regBase))
  else .error .partialRegisterAccess

/-- The value a host read returns (10 R15, R17 to R21). -/
def State.readReg (s : State) : HostReg → Word64
  | .cmd => 0
  | .status => s.status.word
  | .msgBase => s.msgBase
  | .msgLen => s.msgLen
  | .outBase => s.outBase
  | .outCap => s.outCap
  | .errInfo => s.errInfo
  | .reserved => 0

/-- A CMD write: dropped while BUSY = 1 (45 R211), accepted otherwise (45 R212). -/
def State.writeCmd (v : Word64) (s : State) : State := if s.status.busy then s.overrun else s.accept v

/-- The effect of a host write (10 R18, R19, R21; 60 R245). -/
def State.writeReg (r : HostReg) (v : Word64) (s : State) : State :=
  match r with
  | .cmd => s.writeCmd v
  | .status => s
  | .msgBase => { s with msgBase := v }
  | .msgLen => { s with msgLen := v }
  | .outBase => { s with outBase := v }
  | .outCap => { s with outCap := v }
  | .errInfo => s
  | .reserved => s

/-- A host register read: it returns a value and changes nothing (45 R210; log 10). -/
def hostRegRead (addr : Word64) (width : Nat) (s : State) : Host.Outcome State Fault Refusal :=
  match regSlot s.platform addr width with
  | .ok r => .next (s.withReply (.word (s.readReg r)))
  | .error e => .refused e

/-- A host register write (45 R210). -/
def hostRegWrite (addr : Word64) (width : Nat) (v : Word64) (s : State) : Host.Outcome State Fault Refusal :=
  match regSlot s.platform addr width with
  | .ok r => .next (s.writeReg r v)
  | .error e => .refused e

/-- A host read of one data byte (45 R210). A byte of the output region while BUSY = 1 is a draw (70 R274; log 11). -/
def hostDataRead (addr : Word64) (s : State) : State :=
  if s.status.busy && s.snap.inOutput addr.toNat then
    s.countDraw.withReply (.byte (Config.freeByte s.draws addr.toNat))
  else s.withReply (.byte (s.mem.read addr.toNat))

/-- A host write into a region of the running command: the HostRace mark (70 R275). -/
def State.recordRace (s : State) : State := { s with recorded := some .hostRace, raced := true }

/-- A host write of one data byte (45 R210), with the race rule of 70 R275. The byte lands in either case (log 12). -/
def hostDataWrite (addr : Word64) (v : Byte) (s : State) : State :=
  let t := s.withMem (s.mem.write addr.toNat v)
  if s.status.busy && (s.snap.inMessage addr.toNat || s.snap.inOutput addr.toNat) then t.recordRace else t

/-- What a command in flight leaves in data memory when it is abandoned (70 R271; log 13). -/
def State.abandon (s : State) : State :=
  if s.status.busy then
    s.withMem (Memory.forget s.draws s.mem s.snap.outBase.toNat s.snap.abandonedSize)
  else s

/-- The reset event (70 R270): registers 0, internal state unspecified, data memory as 70 R271 says, the HostRace mark
kept. -/
def resetEngine (s : State) : State :=
  { s.abandon with
    status := s.status.afterReset
    errInfo := 0
    msgBase := 0
    msgLen := 0
    outBase := 0
    outCap := 0
    raced := false }.forgetInternal

end Sys2Proof.Machine
end

