-- ==== Sys2Proof/Machine/Illegal.lean ====
section
/-! DEFINITION. Completion of an illegal command word (45 R218, R215 step 1). -/

namespace Sys2Proof.Machine

/-- An accepted word that is no command completes with ILLEGAL_COMMAND and the word itself in ERR_INFO, with no data
access and no other effect (45 R218). -/
def illegalCommand (s : State) : State := s.raiseError ⟨.illegalCommand, s.snap.cmd⟩

end Sys2Proof.Machine
end

