-- ==== Sys2Proof/Machine/Engine.lean ====
section
/-! DEFINITION. The engine's turn and one step of any mover (45 R210). -/

namespace Sys2Proof.Machine

/-- The engine's turn: while BUSY = 1 it completes the accepted command (45 R214), a legal word by its meaning and any
other as 45 R218 says; while BUSY = 0 it does nothing (60 R254; log 2). -/
def engineTurn (s : State) : Host.Outcome State Fault Refusal :=
  if s.status.busy then
    match decode s.snap.cmd with
    | .ok i => exec i s
    | .error _ => .next (illegalCommand s)
  else .next s

/-- One move (45 R210). -/
def takeInput (x : Input) (s : State) : Host.Outcome State Fault Refusal :=
  match x with
  | .regRead addr width => hostRegRead addr width s
  | .regWrite addr width v => hostRegWrite addr width v s
  | .dataRead addr => .next (hostDataRead addr s)
  | .dataWrite addr v => .next (hostDataWrite addr v s)
  | .engine => engineTurn s
  | .reset => .next (resetEngine s)

/-- The oldest move still to come takes place; when none is left the engine has the turn, so that a command always
completes (45 R210 weak fairness; log 2). -/
def nextMove (s : State) : Host.Outcome State Fault Refusal :=
  match s.inputs with
  | [] => engineTurn s
  | x :: rest => takeInput x (s.withInputs rest)

/-- The state in which a command word has just been accepted and the engine has the next turn (log 3). -/
def State.issue (v : Word64) (s : State) : State := (s.accept v).withInputs (.engine :: s.inputs)

end Sys2Proof.Machine
end

