-- ==== Sys2Proof/Machine/Step.lean ====
section
/-! DEFINITION. One step of the machine, and the state in which the next step runs a given command. -/

namespace Sys2Proof.Machine

/-- One step: the next move of whichever agent moves next (45 R210). -/
def step (s : State) : Host.Outcome State Fault Refusal := nextMove s

/-- The engine fetches nothing (10 R12): a command comes from a CMD write. This is the state right after the engine has
accepted the word with the operand registers as they stand (45 R212), with the engine's turn next (log 3). -/
def State.withFetchWord (s : State) (nbits w : Nat) : State := s.issue (tableWord nbits w)

end Sys2Proof.Machine
end

