-- ==== Sys2Proof/Safety.lean ====
section
/-! DEFINITION. The terms claims are stated in: the launch premises of 70 R280, when a command's checks all pass
(45 R215), the text a message hashes to, and the invariant of the whole machine. -/

namespace Sys2Proof.Machine

/-- `clean_entry`: no command is in flight (70 R280). -/
def State.cleanEntry (s : State) : Prop := s.status.busy = false

/-- `no_fault`: no HostRace recorded (70 R280). -/
def State.noFault (s : State) : Prop := s.recorded = none

/-- Steps 2 to 8 of 45 R215 all pass for the snapshot, in the spec's own conditions (60 R241). -/
structure ChecksPass (v : Variant) (term : Bool) (s : State) : Prop where
  /-- step 2 (41 R132) -/
  length : 8 * s.snap.msgLen.toNat < 2 ^ lengthBits v
  /-- step 3 (41 R136) -/
  capacity : ∀ c, s.platform.padCapacity = some c → paddedLength v s.snap.msgLen.toNat ≤ c
  /-- step 4 (20 R38) -/
  msgFits : 0 < s.snap.msgLen.toNat → s.snap.msgBase.toNat + s.snap.msgLen.toNat ≤ 2 ^ 64
  /-- step 5 (20 R37) -/
  msgAdmitted : ∀ i, i < s.snap.msgLen.toNat → s.platform.admits (s.snap.msgBase.toNat + i) .read = true
  /-- step 6 (44 R195) -/
  room : need v term ≤ s.snap.outCap.toNat
  /-- step 7 (20 R38) -/
  outFits : s.snap.outBase.toNat + need v term ≤ 2 ^ 64
  /-- step 8 (20 R37) -/
  outAdmitted : ∀ j, j < need v term → s.platform.admits (s.snap.outBase.toNat + j) .write = true

/-- The chaining state a variant's message ends in, block by block from `IV` (43 R178, closed form). -/
def compress {w : Nat} (T : Params w) (c : Chain w) (blk : List Byte) : Chain w :=
  c.fold (runRounds T (schedule T blk) (Work.ofChain c))

/-- The digest text of a message: pad, split, compress from `IV`, render (43 R178, 44 R193). -/
def digestText (v : Variant) (msg : List Byte) : List Byte :=
  match v with
  | .v256 => ((blocks .v256 (pad .v256 msg)).foldl (compress params256) params256.iv).text
  | .v512 => ((blocks .v512 (pad .v512 msg)).foldl (compress params512) params512.iv).text

/-- Everything a command's completion leaves as it was besides data memory: the operand registers (60 R243), the
HostRace mark, the platform, OVR (45 R214), and the model's own queue and last reply. -/
structure KeepsRegisters (s t : State) : Prop where
  msgBase : t.msgBase = s.msgBase
  msgLen : t.msgLen = s.msgLen
  outBase : t.outBase = s.outBase
  outCap : t.outCap = s.outCap
  ovr : t.status.ovr = s.status.ovr
  recorded : t.recorded = s.recorded
  platform : t.platform = s.platform
  reply : t.reply = s.reply
  inputs : t.inputs = s.inputs

/-- The engine has the next turn (45 R210): its move is the oldest, or no move is left. -/
def State.engineNext (s : State) : Bool :=
  match s.inputs with
  | [] => true
  | x :: _ => x == .engine

/-- A move that the register port does not refuse (20 R35; log 14). -/
def moveAccepted (p : Platform) : Input → Prop
  | .regRead addr width => ∃ r, regSlot p addr width = .ok r
  | .regWrite addr width _ => ∃ r, regSlot p addr width = .ok r
  | .dataRead _ => True
  | .dataWrite _ _ => True
  | .engine => True
  | .reset => True

/-- `k` steps, stopping where one does not answer a next state. -/
def runSteps : Nat → State → Host.Outcome State Fault Refusal
  | 0, s => .next s
  | k + 1, s =>
    match step s with
    | .next t => runSteps k t
    | .fault f => .fault f
    | .refused r => .refused r

/-- What holds in every state a run reaches: canonical memory; the three readings of BUSY and DONE and what STATUS and
ERR_INFO hold in each (10 R17, R20, 70 R274); and the marks of 70 R275. -/
structure State.Inv (s : State) : Prop where
  memory : Memory.wf s.mem
  exclusive : ¬(s.status.busy = true ∧ s.status.done = true)
  running : s.status.busy = true → s.status.err = .none ∧ s.errInfo = 0
  untouched : s.status.busy = false → s.status.done = false →
    s.status.err = .none ∧ s.errInfo = 0 ∧ s.status.ovr = false
  marked : s.raced = true → s.status.busy = true ∧ s.recorded = some .hostRace
  noDetail : s.recorded = none → s.status.err = .none → s.errInfo = 0

end Sys2Proof.Machine
end

