-- ==== Sys2Proof/Certificates/Slice0/Obligations.lean ====
section
/-! DEFINITION. The statements for the provers, each from the spec's numbered rules. -/

open Sys2Proof Sys2Proof.Machine

/-! ### Encoding (spec/30) -/

/-- 30 R56: exactly four legal command words, with their VAR and TERM, and the decoder's mask check. -/
def Obligations.FourLegalCommandWords : Prop :=
  (∀ v : Word64, (∃ i, decode v = .ok i) ↔ v = 0x001 ∨ v = 0x201 ∨ v = 0x101 ∨ v = 0x301) ∧
  (∀ v : Word64, (∃ i, decode v = .ok i) ↔ v &&& 0xFFFFFFFFFFFFFCFF = 0x0000000000000001) ∧
  (∀ (v : Word64) (i : Instr), decode v = .ok i →
    (i.variant = .v512 ↔ v.getLsbD 8 = true) ∧ i.term = v.getLsbD 9) ∧
  decode 0x001 = .ok .hash256 ∧ decode 0x201 = .ok .hash256t ∧
  decode 0x101 = .ok .hash512 ∧ decode 0x301 = .ok .hash512t

/-- 45 R213: legal iff OPC = 0x01 and RSV = 0; VAR is bit 8 and TERM is bit 9; the four legal words of 30 R56. -/
def Obligations.LegalIffOpcodeAndReserved : Prop :=
  ∀ v : Word64,
    ((∃ i, decode v = .ok i) ↔ v.extractLsb' 0 8 = 0x01 ∧ v.extractLsb' 10 54 = 0) ∧
    (∀ i, decode v = .ok i → (i.variant = .v512 ↔ v.getLsbD 8 = true) ∧ i.term = v.getLsbD 9) ∧
    (∀ i, decode v = .ok i →
      (i = .hash256 ∧ v = 0x001) ∨ (i = .hash256t ∧ v = 0x201) ∨
        (i = .hash512 ∧ v = 0x101) ∨ (i = .hash512t ∧ v = 0x301))

/-- Decode and encode agree in both directions: a word decodes to a command exactly when it is the command's word. -/
def Obligations.DecodeIffEncode : Prop :=
  ∀ (v : Word64) (i : Instr), i.wellFormed = true → (decode v = .ok i ↔ v = encode i)

/-- The words of spec/opcode_table.json, written out bit by bit, decode to their commands. -/
def Obligations.TableRowsDecode : Prop :=
  decodeTableWord 64 0b0000000000000000000000000000000000000000000000000000000000000001 = some .hash256 ∧
  decodeTableWord 64 0b0000000000000000000000000000000000000000000000000000001000000001 = some .hash256t ∧
  decodeTableWord 64 0b0000000000000000000000000000000000000000000000000000000100000001 = some .hash512 ∧
  decodeTableWord 64 0b0000000000000000000000000000000000000000000000000000001100000001 = some .hash512t

/-! ### Steps (spec/45 R210) -/

/-- A step runs the decoded command: while BUSY = 1, the engine's turn on a legal word is `exec` of its command, with
the engine's move taken from the queue and nothing else around it. -/
def Obligations.StepRunsDecodedCommand : Prop :=
  ∀ (s : State) (rest : List Input) (i : Instr),
    (s.inputs = [] ∧ rest = []) ∨ s.inputs = .engine :: rest →
    s.status.busy = true → decode s.snap.cmd = .ok i →
    step s = exec i (s.withInputs rest)

/-- An idle engine's turn does nothing (60 R254). -/
def Obligations.IdleEngineDoesNothing : Prop :=
  ∀ (s : State) (rest : List Input),
    (s.inputs = [] ∧ rest = []) ∨ s.inputs = .engine :: rest →
    s.status.busy = false → step s = .next (s.withInputs rest)

/-- No engine turn stops the machine: it always has a next state, and no step of any mover faults (60 R248).
For a raced command this rests on the model's own reading of 70 R275 (log 12). -/
def Obligations.EngineNeverStops : Prop :=
  (∀ s : State, s.engineNext = true → ∃ t, step s = .next t) ∧
  (∀ (s : State) (f : Fault), step s ≠ .fault f)

/-- 45 R218: an illegal word's completion has ILLEGAL_COMMAND and the word itself, no data access, no other effect. -/
def Obligations.IllegalWordCompletes : Prop :=
  ∀ (s : State) (rest : List Input),
    (s.inputs = [] ∧ rest = []) ∨ s.inputs = .engine :: rest →
    s.status.busy = true →
    s.snap.cmd.extractLsb' 0 8 ≠ 0x01 ∨ s.snap.cmd.extractLsb' 10 54 ≠ 0 →
    ∃ t, step s = .next t ∧
      t.status = { busy := false, done := true, ovr := s.status.ovr, err := .illegalCommand } ∧
      t.errInfo = s.snap.cmd ∧ t.mem = s.mem ∧ KeepsRegisters (s.withInputs rest) t

/-! ### The register port (spec/10, 45 R211, R212) -/

/-- 45 R211: a CMD write while BUSY = 1 sets OVR and changes nothing else. -/
def Obligations.BusyCmdWriteDropped : Prop :=
  ∀ (s : State) (v : Word64) (rest : List Input),
    s.inputs = .regWrite s.platform.regBase 64 v :: rest → s.status.busy = true →
    step s = .next { s with status := { s.status with ovr := true }, inputs := rest }

/-- 45 R212: acceptance latches the operand registers and the word, whatever its value, and sets the flags, all at
once; from then on the command uses only the snapshot, so that other operand registers give the same completion.
The cleared mark `raced`, and what the second part says of a raced command, are the model's own reading of 70 R275 (log
12). -/
def Obligations.IdleCmdWriteAccepted : Prop :=
  (∀ (s : State) (v : Word64) (rest : List Input),
    s.inputs = .regWrite s.platform.regBase 64 v :: rest → s.status.busy = false →
    step s = .next { s with
      snap := { cmd := v, msgBase := s.msgBase, msgLen := s.msgLen, outBase := s.outBase, outCap := s.outCap }
      status := { busy := true, done := false, ovr := false, err := .none }
      errInfo := 0
      raced := false
      inputs := rest }) ∧
  (∀ (i : Instr) (s : State) (a n o c : Word64), ∃ t, exec i s = .next t ∧
    exec i { s with msgBase := a, msgLen := n, outBase := o, outCap := c } =
      .next { t with msgBase := a, msgLen := n, outBase := o, outCap := c })

/-- 10 R15: what a whole aligned read of each offset of the register block returns; it changes nothing of the engine. -/
def Obligations.RegisterReadReturns : Prop :=
  ∀ (s : State) (off : Word64) (rest : List Input),
    s.inputs = .regRead (s.platform.regBase + off) 64 :: rest → off.toNat < 0x100 → off.toNat % 8 = 0 →
    step s = .next { s with
      inputs := rest
      reply := some (.word (
        if off = 0x08 then s.status.word
        else if off = 0x10 then s.msgBase
        else if off = 0x18 then s.msgLen
        else if off = 0x20 then s.outBase
        else if off = 0x28 then s.outCap
        else if off = 0x30 then s.errInfo
        else 0)) }

/-- 10 R19: a write of an operand register keeps the value as written and changes only that register, BUSY or not. -/
def Obligations.OperandWriteChangesItsRegister : Prop :=
  ∀ (s : State) (v : Word64) (rest : List Input),
    (s.inputs = .regWrite (s.platform.regBase + 0x10) 64 v :: rest →
      step s = .next { s with msgBase := v, inputs := rest }) ∧
    (s.inputs = .regWrite (s.platform.regBase + 0x18) 64 v :: rest →
      step s = .next { s with msgLen := v, inputs := rest }) ∧
    (s.inputs = .regWrite (s.platform.regBase + 0x20) 64 v :: rest →
      step s = .next { s with outBase := v, inputs := rest }) ∧
    (s.inputs = .regWrite (s.platform.regBase + 0x28) 64 v :: rest →
      step s = .next { s with outCap := v, inputs := rest })

/-- 10 R21: reserved offsets read 0 and ignore writes; the reserved STATUS bits read 0 whatever a host writes. -/
def Obligations.ReservedSpaceReadsZero : Prop :=
  (∀ (s : State) (off v : Word64) (rest : List Input), 0x38 ≤ off.toNat → off.toNat < 0x100 → off.toNat % 8 = 0 →
    (s.inputs = .regRead (s.platform.regBase + off) 64 :: rest →
      step s = .next { s with inputs := rest, reply := some (.word 0) }) ∧
    (s.inputs = .regWrite (s.platform.regBase + off) 64 v :: rest → step s = .next { s with inputs := rest })) ∧
  (∀ (s : State) (v : Word64) (rest : List Input),
    s.inputs = .regWrite (s.platform.regBase + 0x08) 64 v :: rest → step s = .next { s with inputs := rest }) ∧
  (∀ f : Status, f.word.getLsbD 3 = false ∧ ∀ k, 8 ≤ k → f.word.getLsbD k = false)

/-- 10 R20, 60 R245: host writes to STATUS and ERR_INFO are ignored. -/
def Obligations.ReadOnlyRegistersIgnoreWrites : Prop :=
  ∀ (s : State) (off v : Word64) (rest : List Input), off = 0x08 ∨ off = 0x30 →
    s.inputs = .regWrite (s.platform.regBase + off) 64 v :: rest → step s = .next (s.withInputs rest)

/-- 10 R17, R24, 60 R240: where the STATUS fields stand in the word a host reads, and the level of `done`. -/
def Obligations.StatusWordLayout : Prop :=
  ∀ s : State,
    s.status.word.getLsbD 0 = s.status.busy ∧ s.status.word.getLsbD 1 = s.status.done ∧
    s.status.word.getLsbD 2 = s.status.ovr ∧ s.doneSignal = s.status.word.getLsbD 1 ∧
    s.status.word.extractLsb' 4 4 =
      (match s.status.err with
        | .none => 0
        | .lengthOverflow => 1
        | .bufferTooSmall => 2
        | .allocationFailure => 3
        | .illegalCommand => 4
        | .msgRegionWrap => 5
        | .outRegionWrap => 6
        | .busError => 7)

/-- 20 R35: a register access of another width, or at an unaligned offset, is refused and has no step. -/
def Obligations.PartialRegisterAccessRefused : Prop :=
  ∀ (s : State) (addr v : Word64) (width : Nat) (rest : List Input),
    (addr - s.platform.regBase).toNat < 0x100 →
    width ≠ 64 ∨ (addr - s.platform.regBase).toNat % 8 ≠ 0 →
    (s.inputs = .regRead addr width :: rest → step s = .refused .partialRegisterAccess) ∧
    (s.inputs = .regWrite addr width v :: rest → step s = .refused .partialRegisterAccess)

/-! ### The data port (spec/20, 70 R274, R275) -/

/-- 70 R274: a byte of the output region read while BUSY = 1 is a draw, and every other read returns the byte that
stands in memory. Neither changes memory or a register. -/
def Obligations.DataReadReturns : Prop :=
  ∀ (s : State) (addr : Word64) (rest : List Input), s.inputs = .dataRead addr :: rest →
    (∀ i, s.status.busy = true → decode s.snap.cmd = .ok i → s.snap.outBase.toNat ≤ addr.toNat →
      addr.toNat < s.snap.outBase.toNat + need i.variant i.term →
      step s = .next { s with
        inputs := rest, reply := some (.byte (Config.freeByte s.draws addr.toNat)), draws := s.draws + 1 }) ∧
    ((s.status.busy = false ∨ (∃ e, decode s.snap.cmd = .error e) ∨
        ∃ i, decode s.snap.cmd = .ok i ∧
          (addr.toNat < s.snap.outBase.toNat ∨ s.snap.outBase.toNat + need i.variant i.term ≤ addr.toNat)) →
      step s = .next { s with inputs := rest, reply := some (.byte (s.mem.read addr.toNat)) })

/-- 70 R275: a host data write lands, and it records a HostRace exactly when BUSY = 1 and the byte lies in the message
or output region of a legal command. The byte written reads back, and every other byte reads as before (20 R33). -/
def Obligations.DataWriteRecordsRace : Prop :=
  (∀ (m : Memory) (a : Nat) (b : Byte), m.wf →
    (m.write a b).read a = b ∧ ∀ x, x ≠ a → (m.write a b).read x = m.read x) ∧
  ∀ (s : State) (addr : Word64) (b : Byte) (rest : List Input), s.inputs = .dataWrite addr b :: rest →
    (∀ i, s.status.busy = true → decode s.snap.cmd = .ok i →
      (s.snap.msgBase.toNat ≤ addr.toNat ∧ addr.toNat < s.snap.msgBase.toNat + s.snap.msgLen.toNat) ∨
        (s.snap.outBase.toNat ≤ addr.toNat ∧ addr.toNat < s.snap.outBase.toNat + need i.variant i.term) →
      step s = .next { s with
        inputs := rest, mem := s.mem.write addr.toNat b, recorded := some .hostRace, raced := true }) ∧
    ((s.status.busy = false ∨ (∃ e, decode s.snap.cmd = .error e) ∨
        ∃ i, decode s.snap.cmd = .ok i ∧
          ¬(s.snap.msgBase.toNat ≤ addr.toNat ∧ addr.toNat < s.snap.msgBase.toNat + s.snap.msgLen.toNat) ∧
          ¬(s.snap.outBase.toNat ≤ addr.toNat ∧ addr.toNat < s.snap.outBase.toNat + need i.variant i.term)) →
      step s = .next { s with inputs := rest, mem := s.mem.write addr.toNat b })

/-- 70 R275, R270: a recorded HostRace is never cleared, by any step. -/
def Obligations.RaceMarkNeverCleared : Prop :=
  ∀ (s t : State) (f : Fault), step s = .next t → s.recorded = some f → t.recorded = some f

/-! ### The four commands (spec/45 R215 to R217) -/

/-- `hash.256` completes when every check passes: the 64 digest characters at OUT_BASE, every other byte as before. -/
def Obligations.Hash256WritesDigest : Prop :=
  ∀ s : State, s.mem.wf → s.raced = false → ChecksPass .v256 false s →
    ∃ t, exec .hash256 s = .next t ∧
      t.status = { busy := false, done := true, ovr := s.status.ovr, err := .none } ∧ t.errInfo = 0 ∧
      (∀ j, j < 64 → t.mem.read (s.snap.outBase.toNat + j) = (digestText .v256 s.message).getD j 0) ∧
      (∀ a, a < s.snap.outBase.toNat ∨ s.snap.outBase.toNat + 64 ≤ a → t.mem.read a = s.mem.read a)

/-- `hash.256.t` completes when every check passes: the 64 characters and a 0x00, every other byte as before. -/
def Obligations.Hash256tWritesDigestAndTerminator : Prop :=
  ∀ s : State, s.mem.wf → s.raced = false → ChecksPass .v256 true s →
    ∃ t, exec .hash256t s = .next t ∧
      t.status = { busy := false, done := true, ovr := s.status.ovr, err := .none } ∧ t.errInfo = 0 ∧
      (∀ j, j < 64 → t.mem.read (s.snap.outBase.toNat + j) = (digestText .v256 s.message).getD j 0) ∧
      t.mem.read (s.snap.outBase.toNat + 64) = 0x00 ∧
      (∀ a, a < s.snap.outBase.toNat ∨ s.snap.outBase.toNat + 65 ≤ a → t.mem.read a = s.mem.read a)

/-- `hash.512` completes when every check passes: the 128 digest characters at OUT_BASE, every other byte as before. -/
def Obligations.Hash512WritesDigest : Prop :=
  ∀ s : State, s.mem.wf → s.raced = false → ChecksPass .v512 false s →
    ∃ t, exec .hash512 s = .next t ∧
      t.status = { busy := false, done := true, ovr := s.status.ovr, err := .none } ∧ t.errInfo = 0 ∧
      (∀ j, j < 128 → t.mem.read (s.snap.outBase.toNat + j) = (digestText .v512 s.message).getD j 0) ∧
      (∀ a, a < s.snap.outBase.toNat ∨ s.snap.outBase.toNat + 128 ≤ a → t.mem.read a = s.mem.read a)

/-- `hash.512.t` completes when every check passes: the 128 characters and a 0x00, every other byte as before. -/
def Obligations.Hash512tWritesDigestAndTerminator : Prop :=
  ∀ s : State, s.mem.wf → s.raced = false → ChecksPass .v512 true s →
    ∃ t, exec .hash512t s = .next t ∧
      t.status = { busy := false, done := true, ovr := s.status.ovr, err := .none } ∧ t.errInfo = 0 ∧
      (∀ j, j < 128 → t.mem.read (s.snap.outBase.toNat + j) = (digestText .v512 s.message).getD j 0) ∧
      t.mem.read (s.snap.outBase.toNat + 128) = 0x00 ∧
      (∀ a, a < s.snap.outBase.toNat ∨ s.snap.outBase.toNat + 129 ≤ a → t.mem.read a = s.mem.read a)

/-- The frame of all four commands, whatever the outcome: BUSY falls and DONE rises, the registers and marks stay, and
every byte outside the output region reads as before.
For a command that a host raced, this is the model's own reading of 70 R275 and R276 (log 12). -/
def Obligations.CommandFrame : Prop :=
  ∀ (i : Instr) (s : State), ∃ t, exec i s = .next t ∧
    t.status.busy = false ∧ t.status.done = true ∧ KeepsRegisters s t ∧
    (∀ a, a < s.snap.outBase.toNat ∨ s.snap.outBase.toNat + need i.variant i.term ≤ a → t.mem.read a = s.mem.read a)

/-- 60 R241, R242: the code and the detail are those of the first failing step of 45 R215, with the four sizes that 44
R194 gives an output. -/
def Obligations.FirstFailingStepReported : Prop :=
  (need .v256 false = 64 ∧ need .v256 true = 65 ∧ need .v512 false = 128 ∧ need .v512 true = 129) ∧
  ∀ (i : Instr) (s : State), s.raced = false → ∃ t, exec i s = .next t ∧
    let v := i.variant
    let n := s.snap.msgLen.toNat
    let m := s.snap.msgBase.toNat
    let o := s.snap.outBase.toNat
    let size := need v i.term
    let tooLong := 2 ^ lengthBits v ≤ 8 * n
    let tooBig := ∃ c, s.platform.padCapacity = some c ∧ c < n + 1 + zeroPadding v n / 8 + lengthBits v / 8
    let msgWraps := 0 < n ∧ 2 ^ 64 < m + n
    let msgRejected := ∃ x, x < n ∧ s.platform.admits (m + x) .read = false
    let tooSmall := s.snap.outCap.toNat < size
    let outWraps := 2 ^ 64 < o + size
    let outRejected := ∃ x, x < size ∧ s.platform.admits (o + x) .write = false
    (tooLong → t.status.err = .lengthOverflow ∧ t.errInfo = s.snap.msgLen) ∧
    (¬tooLong → tooBig → t.status.err = .allocationFailure ∧ t.errInfo = s.snap.msgLen) ∧
    (¬tooLong → ¬tooBig → msgWraps → t.status.err = .msgRegionWrap ∧ t.errInfo = s.snap.msgBase) ∧
    (¬tooLong → ¬tooBig → ¬msgWraps → msgRejected → t.status.err = .busError ∧
      ∃ x, x < n ∧ t.errInfo.toNat = m + x ∧ s.platform.admits (m + x) .read = false ∧
        ∀ y, y < x → s.platform.admits (m + y) .read = true) ∧
    (¬tooLong → ¬tooBig → ¬msgWraps → ¬msgRejected → tooSmall →
      t.status.err = .bufferTooSmall ∧ t.errInfo.toNat = size) ∧
    (¬tooLong → ¬tooBig → ¬msgWraps → ¬msgRejected → ¬tooSmall → outWraps →
      t.status.err = .outRegionWrap ∧ t.errInfo = s.snap.outBase) ∧
    (¬tooLong → ¬tooBig → ¬msgWraps → ¬msgRejected → ¬tooSmall → ¬outWraps → outRejected →
      t.status.err = .busError ∧
      ∃ x, x < size ∧ t.errInfo.toNat = o + x ∧ s.platform.admits (o + x) .write = false ∧
        ∀ y, y < x → s.platform.admits (o + y) .write = true) ∧
    (¬tooLong → ¬tooBig → ¬msgWraps → ¬msgRejected → ¬tooSmall → ¬outWraps → ¬outRejected →
      t.status.err = .none ∧ t.errInfo = 0)

/-- 44 R197: a command that ends with an error leaves the whole of data memory as it was, a legal word's and an
illegal word's. -/
def Obligations.FailedCommandWritesNothing : Prop :=
  (∀ (i : Instr) (s : State), s.raced = false →
    ∃ t, exec i s = .next t ∧ (t.status.err ≠ .none → t.mem = s.mem)) ∧
  (∀ s : State, (illegalCommand s).status.err = .illegalCommand ∧ (illegalCommand s).mem = s.mem)

/-- 41 R132: LENGTH_OVERFLOW exactly from 2^61 bytes on for VAR = 0, with nothing written, and never for VAR = 1. -/
def Obligations.LengthOverflowExactly : Prop :=
  ∀ (i : Instr) (s : State), s.raced = false → ∃ t, exec i s = .next t ∧
    (i.variant = .v256 → 0x2000000000000000 ≤ s.snap.msgLen.toNat →
      t.status.err = .lengthOverflow ∧ t.errInfo = s.snap.msgLen ∧ t.mem = s.mem) ∧
    (i.variant = .v256 → s.snap.msgLen.toNat < 0x2000000000000000 → t.status.err ≠ .lengthOverflow) ∧
    (i.variant = .v512 → t.status.err ≠ .lengthOverflow)

/-- 20 R37: a byte the bus rejects for writing is never written by a command that no host raced. -/
def Obligations.RejectedByteNeverWritten : Prop :=
  ∀ (i : Instr) (s : State) (a : Nat), s.raced = false → s.platform.admits a .write = false →
    ∃ t, exec i s = .next t ∧ t.mem.read a = s.mem.read a

/-- 70 R275: a raced command still completes, with a result of free values confined to its output region. This rests on
the model's reading of "unconstrained" (log 12). -/
def Obligations.RacedCommandResultIsFree : Prop :=
  ∀ (i : Instr) (s : State), s.mem.wf → s.raced = true → ∃ t, exec i s = .next t ∧
    t.status = { busy := false, done := true, ovr := s.status.ovr, err := Config.freeErr s.draws } ∧
    t.errInfo = Config.freeInfo s.draws ∧ t.raced = false ∧ KeepsRegisters s t ∧
    ∀ a, t.mem.read a =
      if s.snap.outBase.toNat ≤ a ∧ a < s.snap.outBase.toNat + need i.variant i.term ∧ a < 2 ^ 64
      then Config.freeByte s.draws a else s.mem.read a

/-- 44 R198, 43 R177: the outcome depends on nothing but the snapshot, the platform and the message bytes. Two states
that agree on those get the same code, the same detail and the same output bytes. The message is 41 R130's: `n`
bytes, byte `k` read at `S.msg_base + k`. -/
def Obligations.OutcomeDependsOnMessageOnly : Prop :=
  (∀ s : State, s.message.length = s.snap.msgLen.toNat ∧
    ∀ k, k < s.snap.msgLen.toNat → s.message.getD k 0 = s.mem.read (s.snap.msgBase.toNat + k)) ∧
  ∀ (i : Instr) (s1 s2 : State), s1.mem.wf → s2.mem.wf → s1.raced = false → s2.raced = false →
    s1.snap = s2.snap → s1.platform = s2.platform →
    (∀ x, x < s1.snap.msgLen.toNat →
      s1.mem.read (s1.snap.msgBase.toNat + x) = s2.mem.read (s1.snap.msgBase.toNat + x)) →
    ∃ t1 t2, exec i s1 = .next t1 ∧ exec i s2 = .next t2 ∧
      t1.status.err = t2.status.err ∧ t1.errInfo = t2.errInfo ∧
      (t1.status.err = .none → ∀ j, j < need i.variant i.term →
        t1.mem.read (s1.snap.outBase.toNat + j) = t2.mem.read (s1.snap.outBase.toNat + j))

/-! ### The datapath (spec/40 to 44) -/

/-- 40 R102: two-operand addition with wraparound. -/
def Obligations.AdderWrapsAround : Prop :=
  ∀ (w : Nat) (x y : BitVec w), (modAdd x y).toNat = (x.toNat + y.toNat) % 2 ^ w

/-- 40 R103: a sum of several operands is the exact sum modulo 2^w, in any grouping (a list cut in two and its parts
summed apart) and in any order. -/
def Obligations.SumAnyGrouping : Prop :=
  ∀ (w : Nat) (xs ys : List (BitVec w)),
    (modSum xs).toNat = (xs.map BitVec.toNat).sum % 2 ^ w ∧
    modSum (xs ++ ys) = modAdd (modSum xs) (modSum ys) ∧
    (xs.Perm ys → modSum xs = modSum ys)

/-- 40 R104, R105: the bits of a right rotation, and the logical shift as floor division. -/
def Obligations.RotateAndShift : Prop :=
  ∀ (w n : Nat) (x : BitVec w), 0 < n → n < w →
    (∀ b, b < w → (rotr n x).getLsbD b = x.getLsbD ((b + n) % w)) ∧
    (rotr n x).toNat = (x.toNat >>> n) ||| (x.toNat <<< (w - n)) % 2 ^ w ∧
    (shr n x).toNat = x.toNat / 2 ^ n

/-- 40 R106, R107: each bit chosen by `x`, each bit a majority, the forms with OR and the forms with exclusive OR. -/
def Obligations.ChooseAndMajority : Prop :=
  ∀ (w : Nat) (x y z : BitVec w),
    ch x y z = (x &&& y) ||| (~~~x &&& z) ∧
    (∀ b, b < w → (ch x y z).getLsbD b = if x.getLsbD b then y.getLsbD b else z.getLsbD b) ∧
    ch x y z = (x &&& y) ^^^ (~~~x &&& z) ∧
    maj x y z = (x &&& y) ||| (x &&& z) ||| (y &&& z) ∧
    (∀ b, b < w → (maj x y z).getLsbD b =
      decide (2 ≤ (x.getLsbD b).toNat + (y.getLsbD b).toNat + (z.getLsbD b).toNat)) ∧
    maj x y z = (x &&& y) ^^^ (x &&& z) ^^^ (y &&& z)

/-- 40 R108 to R110: every bit of the eight sigma functions, with the amounts of the table. -/
def Obligations.SigmaFunctionBits : Prop :=
  (∀ (x : BitVec 32) (b : Nat), b < 32 →
    (bigSigma params256.bigSigma0 x).getLsbD b =
      ((x.getLsbD ((b + 2) % 32) ^^ x.getLsbD ((b + 13) % 32)) ^^ x.getLsbD ((b + 22) % 32)) ∧
    (bigSigma params256.bigSigma1 x).getLsbD b =
      ((x.getLsbD ((b + 6) % 32) ^^ x.getLsbD ((b + 11) % 32)) ^^ x.getLsbD ((b + 25) % 32)) ∧
    (smallSigma params256.smallSigma0 x).getLsbD b =
      ((x.getLsbD ((b + 7) % 32) ^^ x.getLsbD ((b + 18) % 32)) ^^ x.getLsbD (b + 3)) ∧
    (smallSigma params256.smallSigma1 x).getLsbD b =
      ((x.getLsbD ((b + 17) % 32) ^^ x.getLsbD ((b + 19) % 32)) ^^ x.getLsbD (b + 10))) ∧
  (∀ (x : BitVec 64) (b : Nat), b < 64 →
    (bigSigma params512.bigSigma0 x).getLsbD b =
      ((x.getLsbD ((b + 28) % 64) ^^ x.getLsbD ((b + 34) % 64)) ^^ x.getLsbD ((b + 39) % 64)) ∧
    (bigSigma params512.bigSigma1 x).getLsbD b =
      ((x.getLsbD ((b + 14) % 64) ^^ x.getLsbD ((b + 18) % 64)) ^^ x.getLsbD ((b + 41) % 64)) ∧
    (smallSigma params512.smallSigma0 x).getLsbD b =
      ((x.getLsbD ((b + 1) % 64) ^^ x.getLsbD ((b + 8) % 64)) ^^ x.getLsbD (b + 7)) ∧
    (smallSigma params512.smallSigma1 x).getLsbD b =
      ((x.getLsbD ((b + 19) % 64) ^^ x.getLsbD ((b + 61) % 64)) ^^ x.getLsbD (b + 6)))

/-- 40 R120 to R122: every round constant and initial value of the parameter sets the commands use is the fraction of the
cube or square root of its prime, as the definitions after R122 say: with `m` the root's whole part, `m * 2^w + K[r]` is
the integer root of `p * 2^(3w)`. -/
def Obligations.TablesMatchTheirDefinitions : Prop :=
  ∃ ps : List Nat, ps.length = 80 ∧ ps.Pairwise (· < ·) ∧ (∀ q ∈ ps, q.Prime) ∧ (∀ q, q.Prime → q ≤ 409 → q ∈ ps) ∧
    (params256.k.length = 64 ∧ ∀ r, r < 64 → ∃ m, m < 8 ∧
      (m * 2 ^ 32 + (params256.k.getD r 0).toNat) ^ 3 ≤ ps.getD r 0 * 2 ^ 96 ∧
      ps.getD r 0 * 2 ^ 96 < (m * 2 ^ 32 + (params256.k.getD r 0).toNat + 1) ^ 3) ∧
    (params512.k.length = 80 ∧ ∀ r, r < 80 → ∃ m, m < 8 ∧
      (m * 2 ^ 64 + (params512.k.getD r 0).toNat) ^ 3 ≤ ps.getD r 0 * 2 ^ 192 ∧
      ps.getD r 0 * 2 ^ 192 < (m * 2 ^ 64 + (params512.k.getD r 0).toNat + 1) ^ 3) ∧
    (∀ j, j < 8 → ∃ m, m < 5 ∧
      let T := params256.iv
      let x := m * 2 ^ 32 + ([T.h0, T.h1, T.h2, T.h3, T.h4, T.h5, T.h6, T.h7].getD j 0).toNat
      x ^ 2 ≤ ps.getD j 0 * 2 ^ 64 ∧ ps.getD j 0 * 2 ^ 64 < (x + 1) ^ 2) ∧
    (∀ j, j < 8 → ∃ m, m < 5 ∧
      let T := params512.iv
      let x := m * 2 ^ 64 + ([T.h0, T.h1, T.h2, T.h3, T.h4, T.h5, T.h6, T.h7].getD j 0).toNat
      x ^ 2 ≤ ps.getD j 0 * 2 ^ 128 ∧ ps.getD j 0 * 2 ^ 128 < (x + 1) ^ 2)

/-- 42 R151, R152: the schedule's length, its first 16 words, and the recurrence for the others, in both variants. What
big-endian means is said twice: by 00 R4's law for one more byte in front, and by R151's own sum over a word's bytes. -/
def Obligations.ScheduleRecurrence : Prop :=
  (fromBigEndian [] = 0 ∧
    ∀ (b : Byte) (s : List Byte), fromBigEndian (b :: s) = b.toNat * 256 ^ s.length + fromBigEndian s) ∧
  (∀ (blk : List Byte) (j : Nat), blk.length = 64 → j < 16 → ((schedule params256 blk).getD j 0).toNat =
    ((List.range 4).map fun m => (blk.getD (4 * j + m) 0).toNat * 2 ^ (32 - 8 - 8 * m)).sum) ∧
  (∀ (blk : List Byte) (j : Nat), blk.length = 128 → j < 16 → ((schedule params512 blk).getD j 0).toNat =
    ((List.range 8).map fun m => (blk.getD (8 * j + m) 0).toNat * 2 ^ (64 - 8 - 8 * m)).sum) ∧
  (∀ blk : List Byte, (schedule params256 blk).length = 64 ∧
    (∀ j, j < 16 → (schedule params256 blk).getD j 0 =
      BitVec.ofNat 32 (fromBigEndian ((blk.drop (4 * j)).take 4))) ∧
    (∀ t, 16 ≤ t → t < 64 → (schedule params256 blk).getD t 0 =
      modAdd (modAdd (modAdd
        (smallSigma ⟨17, 19, 10⟩ ((schedule params256 blk).getD (t - 2) 0)) ((schedule params256 blk).getD (t - 7) 0))
        (smallSigma ⟨7, 18, 3⟩ ((schedule params256 blk).getD (t - 15) 0)))
        ((schedule params256 blk).getD (t - 16) 0))) ∧
  (∀ blk : List Byte, (schedule params512 blk).length = 80 ∧
    (∀ j, j < 16 → (schedule params512 blk).getD j 0 =
      BitVec.ofNat 64 (fromBigEndian ((blk.drop (8 * j)).take 8))) ∧
    (∀ t, 16 ≤ t → t < 80 → (schedule params512 blk).getD t 0 =
      modAdd (modAdd (modAdd
        (smallSigma ⟨19, 61, 6⟩ ((schedule params512 blk).getD (t - 2) 0)) ((schedule params512 blk).getD (t - 7) 0))
        (smallSigma ⟨1, 8, 7⟩ ((schedule params512 blk).getD (t - 15) 0)))
        ((schedule params512 blk).getD (t - 16) 0)))

/-- 43 R172, R173, R175: a round's new values, all from the old ones, and the elementwise fold. -/
def Obligations.RoundAndFold : Prop :=
  ∀ (w : Nat) (T : Params w) (v : Work w) (c : Chain w) (k x : BitVec w),
    let t1 := modAdd (modAdd (modAdd (modAdd v.h (bigSigma T.bigSigma1 v.e)) (ch v.e v.f v.g)) k) x
    let t2 := modAdd (bigSigma T.bigSigma0 v.a) (maj v.a v.b v.c)
    roundStep T v k x = ⟨modAdd t1 t2, v.a, v.b, v.c, modAdd v.d t1, v.e, v.f, v.g⟩ ∧
    c.fold v = ⟨modAdd c.h0 v.a, modAdd c.h1 v.b, modAdd c.h2 v.c, modAdd c.h3 v.d,
      modAdd c.h4 v.e, modAdd c.h5 v.f, modAdd c.h6 v.g, modAdd c.h7 v.h⟩

/-- 43 R174: the rounds run in order, round `r` reading `K[r]` and `W[r]`, 64 for VAR = 0 and 80 for VAR = 1. -/
def Obligations.RoundsInOrder : Prop :=
  (∀ (ws : List (BitVec 32)) (v : Work 32), ws.length = 64 →
    ∃ f : Nat → Work 32, f 0 = v ∧ f 64 = runRounds params256 ws v ∧
      ∀ r, r < 64 → f (r + 1) = roundStep params256 (f r) (params256.k.getD r 0) (ws.getD r 0)) ∧
  (∀ (ws : List (BitVec 64)) (v : Work 64), ws.length = 80 →
    ∃ f : Nat → Work 64, f 0 = v ∧ f 80 = runRounds params512 ws v ∧
      ∀ r, r < 80 → f (r + 1) = roundStep params512 (f r) (params512.k.getD r 0) (ws.getD r 0))

/-- 43 R170, R171, R176: `H` starts at `IV`, and the `H` a block's fold leaves is the `H` that the next block's working
variables and fold start from. -/
def Obligations.ChainingAcrossBlocks : Prop :=
  ∀ (w : Nat) (T : Params w) (blks : List (List Byte)) (blk : List Byte),
    (Datapath.run T []).chain = T.iv ∧
    ∀ c, c = (Datapath.run T blks).chain →
      (Datapath.run T (blks ++ [blk])).chain =
        c.fold (runRounds T (schedule T blk) ⟨c.h0, c.h1, c.h2, c.h3, c.h4, c.h5, c.h6, c.h7⟩)

/-- 41 R133: `k` is the least count that solves the padding equation, it is 7 modulo 8, and the zero bytes are
(55 - n) mod 64 or (111 - n) mod 128, with 40 R100's block and length-field sizes. -/
def Obligations.ZeroPaddingIsLeast : Prop :=
  (blockBits .v256 = 512 ∧ blockBits .v512 = 1024 ∧ lengthBits .v256 = 64 ∧ lengthBits .v512 = 128) ∧
  ∀ (v : Variant) (n : Nat),
    (8 * n + 1 + zeroPadding v n) % blockBits v = blockBits v - lengthBits v ∧
    (∀ k, (8 * n + 1 + k) % blockBits v = blockBits v - lengthBits v → zeroPadding v n ≤ k) ∧
    zeroPadding v n < blockBits v ∧ zeroPadding v n % 8 = 7 ∧
    ((zeroPadding .v256 n / 8 : Nat) : Int) = ((55 : Int) - n) % 64 ∧
    ((zeroPadding .v512 n / 8 : Nat) : Int) = ((111 : Int) - n) % 128

/-- 41 R135: the padded buffer is a whole number of blocks, at least one, and how many. -/
def Obligations.PaddedBufferIsWholeBlocks : Prop :=
  ∀ (v : Variant) (msg : List Byte),
    (pad v msg).length = paddedLength v msg.length ∧
    (pad v msg).length = msg.length + 1 + zeroPadding v msg.length / 8 + lengthBits v / 8 ∧
    (pad v msg).length % (blockBits v / 8) = 0 ∧
    1 ≤ (pad v msg).length / (blockBits v / 8) ∧
    (pad .v256 msg).length / 64 = (msg.length + 8) / 64 + 1 ∧
    (pad .v512 msg).length / 128 = (msg.length + 16) / 128 + 1

/-- 41 R134, 30 R60: the layout of the padded buffer, byte by byte to the last byte of the length field (00 R4), and the
integer that field encodes. -/
def Obligations.PaddedBufferLayout : Prop :=
  ∀ (v : Variant) (msg : List Byte),
    let n := msg.length
    let z := zeroPadding v n / 8
    (pad v msg).length = n + 1 + z + lengthBits v / 8 ∧
    (∀ j, j < n → (pad v msg).getD j 0 = msg.getD j 0) ∧
    (pad v msg).getD n 0 = 0x80 ∧
    (∀ j, n < j → j < n + 1 + z → (pad v msg).getD j 0 = 0x00) ∧
    (∀ i, i < lengthBits v / 8 →
      ((pad v msg).getD (n + 1 + z + i) 0).toNat = (8 * n / 2 ^ (8 * (lengthBits v / 8 - 1 - i))) % 256) ∧
    (8 * n < 2 ^ lengthBits v → fromBigEndian ((pad v msg).drop (n + 1 + z)) = 8 * n)

/-- 42 R150: the blocks are the padded buffer cut in order, each of B/8 bytes, nothing left over. -/
def Obligations.BlocksPartitionBuffer : Prop :=
  ∀ (v : Variant) (msg : List Byte),
    (blocks v (pad v msg)).flatten = pad v msg ∧
    ∀ blk ∈ blocks v (pad v msg), blk.length = blockBits v / 8

/-- 44 R191: the hexadecimal characters, and that no two nibbles share one. -/
def Obligations.HexCharacters : Prop :=
  (∀ d : BitVec 4, d.toNat < 10 → (hexChar d).toNat = 0x30 + d.toNat) ∧
  (∀ d : BitVec 4, 10 ≤ d.toNat → (hexChar d).toNat = 0x61 + (d.toNat - 10)) ∧
  (∀ d e : BitVec 4, hexChar d = hexChar e → d = e)

/-- 44 R192, R193, 20 R44, 30 R61: the digest is the text of the chaining state after the last block; its characters stand
in order, words from `H[0]` to `H[7]` and each word's most significant nibble first; its length; and every character
is a lowercase hexadecimal digit. For every message. -/
def Obligations.DigestIsLowercaseHex : Prop :=
  (∀ msg : List Byte,
    digestText .v256 msg = (Datapath.run params256 (blocks .v256 (pad .v256 msg))).chain.text ∧
    digestText .v512 msg = (Datapath.run params512 (blocks .v512 (pad .v512 msg))).chain.text) ∧
  (∀ (c : Chain 32) (m j : Nat), m < 8 → j < 8 → c.text.getD (8 * m + j) 0 =
    hexChar (([c.h0, c.h1, c.h2, c.h3, c.h4, c.h5, c.h6, c.h7].getD m 0).extractLsb' (28 - 4 * j) 4)) ∧
  (∀ (c : Chain 64) (m j : Nat), m < 8 → j < 16 → c.text.getD (16 * m + j) 0 =
    hexChar (([c.h0, c.h1, c.h2, c.h3, c.h4, c.h5, c.h6, c.h7].getD m 0).extractLsb' (60 - 4 * j) 4)) ∧
  ∀ (v : Variant) (msg : List Byte),
    (digestText v msg).length = (match v with | .v256 => 64 | .v512 => 128) ∧
    ∀ b ∈ digestText v msg, (0x30 ≤ b.toNat ∧ b.toNat ≤ 0x39) ∨ (0x61 ≤ b.toNat ∧ b.toNat ≤ 0x66)

/-- 44 R192, R193: the text determines the chaining state: no two chaining states of a variant share a text. -/
def Obligations.DigestTextDeterminesState : Prop :=
  (∀ c d : Chain 32, c.text = d.text → c = d) ∧ (∀ c d : Chain 64, c.text = d.text → c = d)

/-! ### Reset (spec/70) -/

/-- 70 R270: the registers right after reset. The values of the hidden state and of memory are the model's own (logs 6
and 7) and not stated here. -/
def Obligations.ResetRegisters : Prop :=
  State.reset.status.word = 0 ∧ State.reset.errInfo = 0 ∧ State.reset.msgBase = 0 ∧ State.reset.msgLen = 0 ∧
  State.reset.outBase = 0 ∧ State.reset.outCap = 0 ∧ State.reset.doneSignal = false

/-- 70 R270: the reset event in any state: the registers are 0, the HostRace mark and the platform stay, and an idle
engine's reset does not touch data memory. -/
def Obligations.ResetEvent : Prop :=
  ∀ (s : State) (rest : List Input), s.inputs = .reset :: rest →
    ∃ t, step s = .next t ∧
      t.status.word = 0 ∧ t.errInfo = 0 ∧ t.msgBase = 0 ∧ t.msgLen = 0 ∧ t.outBase = 0 ∧ t.outCap = 0 ∧
      t.doneSignal = false ∧ t.recorded = s.recorded ∧ t.platform = s.platform ∧ t.inputs = rest ∧
      (s.status.busy = false → t.mem = s.mem)

/-- 70 R271: a reset during a command changes no byte outside the first min(OUT_CAP, need) bytes of the output region,
and no byte at all for an illegal word or a wrapping output region. Inside the range each byte is a draw. STATUS is that
of 70 R270 and not the command's. -/
def Obligations.ResetDuringCommand : Prop :=
  ∀ (s : State) (rest : List Input), s.inputs = .reset :: rest → s.status.busy = true → s.mem.wf →
    ∃ t, step s = .next t ∧ t.status = { busy := false, done := false, ovr := false, err := .none } ∧
      (∀ e, decode s.snap.cmd = .error e → ∀ a, t.mem.read a = s.mem.read a) ∧
      (∀ i, decode s.snap.cmd = .ok i → 2 ^ 64 < s.snap.outBase.toNat + need i.variant i.term →
        ∀ a, t.mem.read a = s.mem.read a) ∧
      (∀ i, decode s.snap.cmd = .ok i → s.snap.outBase.toNat + need i.variant i.term ≤ 2 ^ 64 →
        ∀ a, t.mem.read a =
          if s.snap.outBase.toNat ≤ a ∧ a < s.snap.outBase.toNat + min s.snap.outCap.toNat (need i.variant i.term)
          then Config.freeByte s.draws a else s.mem.read a)

/-! ### The whole machine -/

/-- The invariant holds right after reset. -/
def Obligations.InvariantAtReset : Prop := State.reset.Inv

/-- Every step of every mover keeps the invariant: canonical memory, BUSY and DONE never both 1 (10 R17), STATUS and
ERR_INFO as 70 R274 and 45 R212 say in each phase, and the marks of 70 R275.
The mark of a raced command, and its completion, are the model's own (log 12). -/
def Obligations.InvariantKeptByStep : Prop :=
  ∀ s t : State, s.Inv → step s = .next t → t.Inv

/-- 20 R30, 45 R220, 70 R271: a byte changes only by a host's write of that byte, or inside the output region of a
running legal command, at its completion or at a reset.
That a raced completion, too, stays in the output region is the model's own reading of 70 R275 and R276 (log 12). -/
def Obligations.MemoryChangesConfined : Prop :=
  ∀ (s t : State) (a : Nat), step s = .next t → t.mem.read a ≠ s.mem.read a →
    (∃ addr v rest, s.inputs = .dataWrite addr v :: rest ∧ addr.toNat = a) ∨
    (s.status.busy = true ∧
      (s.engineNext = true ∨ ∃ rest, s.inputs = .reset :: rest) ∧
      ∃ i, decode s.snap.cmd = .ok i ∧
        s.snap.outBase.toNat ≤ a ∧ a < s.snap.outBase.toNat + need i.variant i.term)

/-- 60 R247, 10 R24: `done` rises only at a completion, and falls only at an acceptance or a reset.
That a raced command completes like any other is the model's own reading of 70 R275 (log 12). -/
def Obligations.DoneRisesOnlyAtCompletion : Prop :=
  ∀ s t : State, step s = .next t →
    (s.doneSignal = false → t.doneSignal = true →
      s.status.busy = true ∧ s.engineNext = true ∧ t.status.busy = false) ∧
    (s.doneSignal = true → t.doneSignal = false →
      (∃ rest, s.inputs = .reset :: rest) ∨
      (s.status.busy = false ∧ t.status.busy = true ∧
        ∃ v rest, s.inputs = .regWrite s.platform.regBase 64 v :: rest ∧ t.snap.cmd = v))

/-- 60 R245: while the engine is idle, ERR, ERR_INFO and DONE keep their values until a CMD write is accepted or the
engine is reset. -/
def Obligations.OutcomeKeptUntilNextCommand : Prop :=
  ∀ s t : State, step s = .next t → s.status.busy = false →
    (t.status.err = s.status.err ∧ t.errInfo = s.errInfo ∧ t.status.done = s.status.done) ∨
    (∃ rest, s.inputs = .reset :: rest) ∨
    (∃ v rest, s.inputs = .regWrite s.platform.regBase 64 v :: rest ∧ t.status.busy = true)

/-- 10 R16, 20 R42: while BUSY = 1 no host access changes the running command's snapshot or ends it. -/
def Obligations.RunningCommandIsLatched : Prop :=
  ∀ (s t : State) (x : Input) (rest : List Input), s.inputs = x :: rest → x ≠ .engine → x ≠ .reset →
    s.status.busy = true → step s = .next t → t.snap = s.snap ∧ t.status.busy = true ∧ t.status.done = s.status.done

/-- 20 R36, 45 R219: while a legal command runs, a step that leaves it running and unraced leaves every message byte as
it was. -/
def Obligations.MessageStableUnlessRaced : Prop :=
  ∀ (s t : State) (i : Instr), step s = .next t → s.status.busy = true → decode s.snap.cmd = .ok i →
    t.status.busy = true → t.raced = false → t.message = s.message

/-- The model's own choice (log 4): no step changes the platform's parameters. The spec leaves the parameters to the
platform (20 R37) and fixes only `admits`, for the duration of a command (92 open parameters). -/
def Obligations.PlatformFixed : Prop :=
  ∀ s t : State, step s = .next t → t.platform = s.platform

/-- 45 R210, 70 R279: a running command ends after finitely many steps, whatever the moves still to come, as long as
the register port refuses none of them. The bound is the model's queue (log 2).
That a raced command completes too is the model's own reading of 70 R275 (log 12). -/
def Obligations.EveryCommandEnds : Prop :=
  ∀ s : State, s.status.busy = true → (∀ x ∈ s.inputs, moveAccepted s.platform x) →
    ∃ k t, k ≤ s.inputs.length + 1 ∧ runSteps k s = .next t ∧ t.status.busy = false

/-- 10 R19, 45 R212: an operand register write while a command runs and that command's completion commute: both orders
end in the same state.
For a raced command this rests on the model's own reading of 70 R275 (log 12). -/
def Obligations.OperandWriteCommutesWithCompletion : Prop :=
  ∀ (s : State) (off v : Word64), s.status.busy = true →
    off = 0x10 ∨ off = 0x18 ∨ off = 0x20 ∨ off = 0x28 →
    ∃ t, runSteps 2 (s.withInputs [.regWrite (s.platform.regBase + off) 64 v, .engine]) = .next t ∧
      runSteps 2 (s.withInputs [.engine, .regWrite (s.platform.regBase + off) 64 v]) = .next t ∧
      t.status.busy = false
end

