-- ==== Sys2Proof/Laws/Datapath.lean ====
section
/-! SUPPORT. The laws of the datapath: lengths of what it builds, and the engine's word storage against the closed form
of 43 R178. -/

namespace Sys2Proof.Machine

/-- A table of constants has four words for each line the spec prints. -/
@[simp] theorem length_readByColumns {w : Nat} (rows : List (ConstantRow w)) :
    (readByColumns rows).length = 4 * rows.length := by
  simp only [readByColumns, List.length_append, List.length_map]; omega

@[simp] theorem length_k256 : params256.k.length = 64 := length_readByColumns k256Rows

@[simp] theorem length_k512 : params512.k.length = 80 := length_readByColumns (k512RowsAt0 ++ k512RowsAt10)

@[simp] theorem length_render {w : Nat} (x : BitVec w) : (render x).length = w / 4 := by simp [render]

/-- The digest string of a chaining state takes `w/4` characters a word. -/
theorem Chain.length_text {w : Nat} (c : Chain w) : c.text.length = 8 * (w / 4) := by
  simp only [Chain.text, List.length_append, length_render]; omega

@[simp] theorem length_bigEndian (n x : Nat) : (bigEndian n x).length = n := by simp [bigEndian]

@[simp] theorem length_zeroBytes (n : Nat) : (zeroBytes n).length = n := by simp [zeroBytes]

theorem length_pad (v : Variant) (msg : List Byte) : (pad v msg).length = paddedLength v msg.length := by
  simp only [pad, paddedLength, List.length_append, length_zeroBytes, length_bigEndian, List.length_cons, List.length_nil]

@[simp] theorem length_unpack (w : Nat) (blk : List Byte) : (unpack w blk).length = 16 := by simp [unpack]

/-- The expander keeps what was there and appends one word a turn. -/
theorem length_expand {w : Nat} (T : Params w) (n : Nat) (ws : List (BitVec w)) :
    (expand T n ws).length = ws.length + n := by
  induction n generalizing ws with
  | zero => rfl
  | succ n ih => rw [expand, ih, List.length_append, List.length_singleton]; omega

theorem length_schedule {w : Nat} (T : Params w) (blk : List Byte) :
    (schedule T blk).length = 16 + (T.rounds - 16) := by
  rw [schedule, length_expand, length_unpack]

@[simp] theorem Datapath.block_chain {w : Nat} (T : Params w) (d : Datapath w) (blk : List Byte) :
    (d.block T blk).chain = compress T d.chain blk := rfl

theorem Datapath.foldl_chain {w : Nat} (T : Params w) (blks : List (List Byte)) (d : Datapath w) :
    (blks.foldl (Datapath.block T) d).chain = blks.foldl (compress T) d.chain := by
  induction blks generalizing d with
  | nil => rfl
  | cons b bs ih => rw [List.foldl_cons, ih, Datapath.block_chain, List.foldl_cons]

/-- The engine's chaining state after its blocks is the fold of `compress` from `IV`. -/
theorem Datapath.run_chain {w : Nat} (T : Params w) (blks : List (List Byte)) :
    (Datapath.run T blks).chain = blks.foldl (compress T) T.iv := Datapath.foldl_chain T blks _

/-- The text the serializer reads from the engine's storage is the message's digest text. -/
theorem text_hash (v : Variant) (msg : List Byte) : (Context.hash v msg).words.text = digestText v msg := by
  cases v <;> simp only [Context.hash, WordStore.run, WordStore.text, digestText, Datapath.run_chain]

theorem length_digestText (v : Variant) (msg : List Byte) : (digestText v msg).length = digestLength v := by
  cases v <;> simp only [digestText, Chain.length_text, digestLength, wordBits]

@[simp] theorem length_message (s : State) : s.message.length = s.snap.msgLen.toNat := by simp [State.message]

/-- The bytes a command writes, after the message was hashed. -/
theorem outputBytes_hashMessage (v : Variant) (term : Bool) (s : State) :
    (s.hashMessage v).outputBytes term = digestText v s.message ++ terminator term := by
  rw [State.outputBytes, ← text_hash]; rfl

theorem length_output (v : Variant) (term : Bool) (msg : List Byte) :
    (digestText v msg ++ terminator term).length = need v term := by
  rw [List.length_append, length_digestText]; rfl

end Sys2Proof.Machine
end

