-- ==== Sys2Proof/Laws/Memory.lean ====
section
/-! SUPPORT. The laws of data memory: a byte read after a write, the canonical form kept by every operation, and what a
run of writes changes. -/

namespace Sys2Proof.Machine

@[simp] theorem Memory.read_nil (a : Nat) : Memory.read [] a = Memory.unlisted := rfl

theorem Memory.read_cons (k : Nat) (b : Byte) (m : Memory) (a : Nat) :
    Memory.read ((k, b) :: m) a = if k = a then b else Memory.read m a := rfl

/-- An address below every listed one reads as unlisted. -/
theorem Memory.read_of_forall_ne {m : Memory} {a : Nat} (h : ∀ c ∈ m, c.1 ≠ a) : m.read a = Memory.unlisted := by
  induction m with
  | nil => rfl
  | cons c m ih =>
    obtain ⟨k, b⟩ := c
    rw [Memory.read_cons, if_neg (h (k, b) (by simp)), ih fun c hc => h c (by simp [hc])]

/-- A read after a write, at any address, in a memory with rising addresses. -/
theorem Memory.read_write {m : Memory} (hm : m.Pairwise (fun c d => c.1 < d.1)) (a : Nat) (b : Byte) (x : Nat) :
    (m.write a b).read x = if x = a then b else m.read x := by
  induction m with
  | nil =>
    by_cases hb : b = Memory.unlisted <;> by_cases hx : x = a <;>
      simp [Memory.write, Memory.read, hb, hx, eq_comm (a := a)]
  | cons c m ih =>
    obtain ⟨k, e⟩ := c
    obtain ⟨hlt, hm'⟩ := List.pairwise_cons.mp hm
    have above : ∀ y, y ≤ k → Memory.read m y = Memory.unlisted := fun y hy =>
      Memory.read_of_forall_ne fun c hc => by have : k < c.1 := hlt c hc; omega
    by_cases h1 : a < k
    · by_cases hb : b = Memory.unlisted
      · by_cases hx : x = a
        · subst hx
          simp [Memory.write, h1, hb, Memory.read_cons, above x (by omega), Nat.ne_of_gt h1]
        · simp [Memory.write, h1, hb, hx]
      · simp [Memory.write, h1, hb, Memory.read_cons, eq_comm (a := a)]
    · by_cases h2 : a = k
      · subst h2
        by_cases hb : b = Memory.unlisted
        · by_cases hx : x = a
          · subst hx
            simp [Memory.write, hb, above x le_rfl]
          · simp [Memory.write, hb, Memory.read_cons, hx, Ne.symm hx]
        · by_cases hx : x = a
          · simp [Memory.write, hb, Memory.read_cons, hx]
          · simp [Memory.write, hb, Memory.read_cons, hx, Ne.symm hx]
      · simp only [Memory.write, h1, h2, if_false, Memory.read_cons, ih hm']
        by_cases hx : k = x
        · subst hx; simp [Ne.symm h2]
        · simp [hx]

theorem Memory.read_write_same {m : Memory} (hm : m.wf) (a : Nat) (b : Byte) : (m.write a b).read a = b := by
  rw [Memory.read_write hm.1, if_pos rfl]

/-- A write leaves every other address as it was, in any memory. -/
theorem Memory.read_write_other (m : Memory) {a x : Nat} (h : x ≠ a) (b : Byte) :
    (m.write a b).read x = m.read x := by
  induction m with
  | nil => by_cases hb : b = Memory.unlisted <;> simp [Memory.write, Memory.read, hb, Ne.symm h]
  | cons c m ih =>
    obtain ⟨k, e⟩ := c
    simp only [Memory.write]
    split
    · split <;> simp [Memory.read_cons, Ne.symm h]
    · split
      · subst_vars
        split <;> simp [Memory.read_cons, Ne.symm h]
      · rw [Memory.read_cons, Memory.read_cons, ih]

/-- Every entry of a written memory is an old one or the written one. -/
theorem Memory.mem_write {m : Memory} {a : Nat} {b : Byte} {c : Host.Cell} (hc : c ∈ m.write a b) :
    c ∈ m ∨ (c = (a, b) ∧ b ≠ Memory.unlisted) := by
  induction m with
  | nil =>
    by_cases hb : b = Memory.unlisted
    · simp [Memory.write, hb] at hc
    · simp [Memory.write, hb] at hc; exact .inr ⟨hc, hb⟩
  | cons d m ih =>
    obtain ⟨k, e⟩ := d
    simp only [Memory.write] at hc
    split at hc
    · split at hc
      · exact .inl hc
      · rcases List.mem_cons.mp hc with h | h
        · exact .inr ⟨h, ‹_›⟩
        · exact .inl h
    · split at hc
      · split at hc
        · exact .inl (List.mem_cons_of_mem _ hc)
        · rcases List.mem_cons.mp hc with h | h
          · exact .inr ⟨h, ‹_›⟩
          · exact .inl (List.mem_cons_of_mem _ h)
      · rcases List.mem_cons.mp hc with h | h
        · exact .inl (by simp [h])
        · exact (ih h).imp (List.mem_cons_of_mem _) id

theorem Memory.write_sorted {m : Memory} (hm : m.Pairwise (fun c d => c.1 < d.1)) (a : Nat) (b : Byte) :
    (m.write a b).Pairwise (fun c d => c.1 < d.1) := by
  induction m with
  | nil => by_cases hb : b = Memory.unlisted <;> simp [Memory.write, hb]
  | cons d m ih =>
    obtain ⟨k, e⟩ := d
    obtain ⟨hlt, hm'⟩ := List.pairwise_cons.mp hm
    simp only [Memory.write]
    split
    · split
      · exact hm
      · refine List.pairwise_cons.mpr ⟨fun c hc => ?_, hm⟩
        rcases List.mem_cons.mp hc with h | h
        · simp only [h]; assumption
        · have := hlt c h; simp only at this ⊢; omega
    · split
      · subst_vars
        split
        · exact hm'
        · exact List.pairwise_cons.mpr ⟨hlt, hm'⟩
      · refine List.pairwise_cons.mpr ⟨fun c hc => ?_, ih hm'⟩
        rcases Memory.mem_write hc with h | ⟨h, -⟩
        · exact hlt c h
        · simp only [h]; omega

/-- A byte write keeps the canonical form. -/
theorem Memory.write_wf {m : Memory} (hm : m.wf) {a : Nat} (ha : a < 2 ^ 64) (b : Byte) : (m.write a b).wf := by
  refine ⟨Memory.write_sorted hm.1 a b, fun c hc => ?_⟩
  rcases Memory.mem_write hc with h | ⟨h, hb⟩
  · exact hm.2 c h
  · subst h; exact ⟨ha, hb⟩

theorem Memory.nil_wf : Memory.wf [] := ⟨List.Pairwise.nil, fun _ h => nomatch h⟩

/-- Writing a run of bytes below the top of the data space keeps the canonical form. -/
theorem Memory.writeBytes_wf {m : Memory} (hm : m.wf) {a : Nat} {bs : List Byte} (h : a + bs.length ≤ 2 ^ 64) :
    (m.writeBytes a bs).wf := by
  induction bs generalizing m a with
  | nil => exact hm
  | cons b bs ih =>
    simp only [List.length_cons] at h
    exact ih (Memory.write_wf hm (by omega) b) (by omega)

/-- Everything a run of byte writes does to the byte at any address. -/
theorem Memory.read_writeBytes {m : Memory} (hm : m.Pairwise (fun c d => c.1 < d.1)) (a : Nat) (bs : List Byte)
    (x : Nat) :
    (m.writeBytes a bs).read x = if a ≤ x ∧ x < a + bs.length then bs.getD (x - a) 0 else m.read x := by
  induction bs generalizing m a with
  | nil => rw [Memory.writeBytes, if_neg (by simp)]
  | cons b bs ih =>
    rw [Memory.writeBytes, ih (Memory.write_sorted hm a b), Memory.read_write hm]
    simp only [List.length_cons]
    by_cases hx : x = a
    · subst hx; simp
    · by_cases h : a + 1 ≤ x ∧ x < a + 1 + bs.length
      · rw [if_pos h, if_pos (by omega), show x - a = (x - (a + 1)) + 1 by omega]; rfl
      · rw [if_neg h, if_neg hx, if_neg (by omega)]

/-- A run of byte writes leaves every address outside it as it was, in any memory. -/
theorem Memory.read_writeBytes_other (m : Memory) {a x : Nat} {bs : List Byte} (h : x < a ∨ a + bs.length ≤ x) :
    (m.writeBytes a bs).read x = m.read x := by
  induction bs generalizing m a with
  | nil => rfl
  | cons b bs ih =>
    simp only [List.length_cons] at h
    rw [Memory.writeBytes, ih _ (by omega), Memory.read_write_other m (by omega)]

/-- Letting bytes hold free values keeps the canonical form. -/
theorem Memory.forget_wf {m : Memory} (hm : m.wf) (n a len : Nat) : (Memory.forget n m a len).wf := by
  induction len generalizing m a with
  | zero => exact hm
  | succ len ih =>
    rw [Memory.forget]
    split
    · exact ih (Memory.write_wf hm ‹_› _) _
    · exact ih hm _

theorem Memory.forget_sorted {m : Memory} (hm : m.Pairwise (fun c d => c.1 < d.1)) (n a len : Nat) :
    (Memory.forget n m a len).Pairwise (fun c d => c.1 < d.1) := by
  induction len generalizing m a with
  | zero => exact hm
  | succ len ih =>
    rw [Memory.forget]
    split
    · exact ih (Memory.write_sorted hm _ _) _
    · exact ih hm _

/-- Letting bytes hold free values leaves every address outside them as it was, in any memory. -/
theorem Memory.read_forget_other (m : Memory) {n a len x : Nat} (h : x < a ∨ a + len ≤ x) :
    (Memory.forget n m a len).read x = m.read x := by
  induction len generalizing m a with
  | zero => rfl
  | succ len ih =>
    rw [Memory.forget, ih _ (by omega)]
    split
    · exact Memory.read_write_other m (by omega) _
    · rfl

/-- Everything that letting bytes hold free values does to the byte at any address. -/
theorem Memory.read_forget {m : Memory} (hm : m.Pairwise (fun c d => c.1 < d.1)) (n a len x : Nat) :
    (Memory.forget n m a len).read x =
      if a ≤ x ∧ x < a + len ∧ x < 2 ^ 64 then Config.freeByte n x else m.read x := by
  induction len generalizing m a with
  | zero => rw [Memory.forget, if_neg (by omega)]
  | succ len ih =>
    rw [Memory.forget]
    by_cases ha : a < 2 ^ 64
    · rw [if_pos ha, ih (Memory.write_sorted hm _ _), Memory.read_write hm]
      by_cases hx : x = a
      · subst hx; rw [if_neg (by omega), if_pos rfl, if_pos (by omega)]
      · rw [if_neg hx]
        by_cases h : a + 1 ≤ x ∧ x < a + 1 + len ∧ x < 2 ^ 64
        · rw [if_pos h, if_pos (by omega)]
        · rw [if_neg h, if_neg (by omega)]
    · rw [if_neg ha, ih hm, if_neg (by omega), if_neg (by omega)]

end Sys2Proof.Machine
end

