-- ==== Sys2Proof/Laws/State.lean ====
section
/-! SUPPORT. One lemma per field per update of the state, each true by unfolding the update once. -/

namespace Sys2Proof.Machine

@[simp] theorem State.forgetInternal_status (s : State) : (s.forgetInternal).status = s.status := rfl
@[simp] theorem State.forgetInternal_errInfo (s : State) : (s.forgetInternal).errInfo = s.errInfo := rfl
@[simp] theorem State.forgetInternal_msgBase (s : State) : (s.forgetInternal).msgBase = s.msgBase := rfl
@[simp] theorem State.forgetInternal_msgLen (s : State) : (s.forgetInternal).msgLen = s.msgLen := rfl
@[simp] theorem State.forgetInternal_outBase (s : State) : (s.forgetInternal).outBase = s.outBase := rfl
@[simp] theorem State.forgetInternal_outCap (s : State) : (s.forgetInternal).outCap = s.outCap := rfl
@[simp] theorem State.forgetInternal_snap (s : State) : (s.forgetInternal).snap = Config.freeSnapshot s.draws := rfl
@[simp] theorem State.forgetInternal_ctx (s : State) : (s.forgetInternal).ctx = Config.freeContext s.draws := rfl
@[simp] theorem State.forgetInternal_mem (s : State) : (s.forgetInternal).mem = s.mem := rfl
@[simp] theorem State.forgetInternal_recorded (s : State) : (s.forgetInternal).recorded = s.recorded := rfl
@[simp] theorem State.forgetInternal_platform (s : State) : (s.forgetInternal).platform = s.platform := rfl
@[simp] theorem State.forgetInternal_raced (s : State) : (s.forgetInternal).raced = s.raced := rfl
@[simp] theorem State.forgetInternal_reply (s : State) : (s.forgetInternal).reply = s.reply := rfl
@[simp] theorem State.forgetInternal_inputs (s : State) : (s.forgetInternal).inputs = s.inputs := rfl
@[simp] theorem State.forgetInternal_draws (s : State) : (s.forgetInternal).draws = s.draws + 1 := rfl

@[simp] theorem State.accept_status (v : Word64) (s : State) : (s.accept v).status = { busy := true, done := false, ovr := false, err := .none } := rfl
@[simp] theorem State.accept_errInfo (v : Word64) (s : State) : (s.accept v).errInfo = 0 := rfl
@[simp] theorem State.accept_msgBase (v : Word64) (s : State) : (s.accept v).msgBase = s.msgBase := rfl
@[simp] theorem State.accept_msgLen (v : Word64) (s : State) : (s.accept v).msgLen = s.msgLen := rfl
@[simp] theorem State.accept_outBase (v : Word64) (s : State) : (s.accept v).outBase = s.outBase := rfl
@[simp] theorem State.accept_outCap (v : Word64) (s : State) : (s.accept v).outCap = s.outCap := rfl
@[simp] theorem State.accept_snap (v : Word64) (s : State) : (s.accept v).snap = { cmd := v, msgBase := s.msgBase, msgLen := s.msgLen, outBase := s.outBase, outCap := s.outCap } := rfl
@[simp] theorem State.accept_ctx (v : Word64) (s : State) : (s.accept v).ctx = s.ctx := rfl
@[simp] theorem State.accept_mem (v : Word64) (s : State) : (s.accept v).mem = s.mem := rfl
@[simp] theorem State.accept_recorded (v : Word64) (s : State) : (s.accept v).recorded = s.recorded := rfl
@[simp] theorem State.accept_platform (v : Word64) (s : State) : (s.accept v).platform = s.platform := rfl
@[simp] theorem State.accept_raced (v : Word64) (s : State) : (s.accept v).raced = false := rfl
@[simp] theorem State.accept_reply (v : Word64) (s : State) : (s.accept v).reply = s.reply := rfl
@[simp] theorem State.accept_inputs (v : Word64) (s : State) : (s.accept v).inputs = s.inputs := rfl
@[simp] theorem State.accept_draws (v : Word64) (s : State) : (s.accept v).draws = s.draws := rfl

@[simp] theorem State.overrun_status (s : State) : (s.overrun).status = { s.status with ovr := true } := rfl
@[simp] theorem State.overrun_errInfo (s : State) : (s.overrun).errInfo = s.errInfo := rfl
@[simp] theorem State.overrun_msgBase (s : State) : (s.overrun).msgBase = s.msgBase := rfl
@[simp] theorem State.overrun_msgLen (s : State) : (s.overrun).msgLen = s.msgLen := rfl
@[simp] theorem State.overrun_outBase (s : State) : (s.overrun).outBase = s.outBase := rfl
@[simp] theorem State.overrun_outCap (s : State) : (s.overrun).outCap = s.outCap := rfl
@[simp] theorem State.overrun_snap (s : State) : (s.overrun).snap = s.snap := rfl
@[simp] theorem State.overrun_ctx (s : State) : (s.overrun).ctx = s.ctx := rfl
@[simp] theorem State.overrun_mem (s : State) : (s.overrun).mem = s.mem := rfl
@[simp] theorem State.overrun_recorded (s : State) : (s.overrun).recorded = s.recorded := rfl
@[simp] theorem State.overrun_platform (s : State) : (s.overrun).platform = s.platform := rfl
@[simp] theorem State.overrun_raced (s : State) : (s.overrun).raced = s.raced := rfl
@[simp] theorem State.overrun_reply (s : State) : (s.overrun).reply = s.reply := rfl
@[simp] theorem State.overrun_inputs (s : State) : (s.overrun).inputs = s.inputs := rfl
@[simp] theorem State.overrun_draws (s : State) : (s.overrun).draws = s.draws := rfl

@[simp] theorem State.complete_status (c : ErrCode) (x : Word64) (s : State) : (s.complete c x).status = { s.status with busy := false, done := true, err := c } := rfl
@[simp] theorem State.complete_errInfo (c : ErrCode) (x : Word64) (s : State) : (s.complete c x).errInfo = x := rfl
@[simp] theorem State.complete_msgBase (c : ErrCode) (x : Word64) (s : State) : (s.complete c x).msgBase = s.msgBase := rfl
@[simp] theorem State.complete_msgLen (c : ErrCode) (x : Word64) (s : State) : (s.complete c x).msgLen = s.msgLen := rfl
@[simp] theorem State.complete_outBase (c : ErrCode) (x : Word64) (s : State) : (s.complete c x).outBase = s.outBase := rfl
@[simp] theorem State.complete_outCap (c : ErrCode) (x : Word64) (s : State) : (s.complete c x).outCap = s.outCap := rfl
@[simp] theorem State.complete_snap (c : ErrCode) (x : Word64) (s : State) : (s.complete c x).snap = Config.freeSnapshot s.draws := rfl
@[simp] theorem State.complete_ctx (c : ErrCode) (x : Word64) (s : State) : (s.complete c x).ctx = Config.freeContext s.draws := rfl
@[simp] theorem State.complete_mem (c : ErrCode) (x : Word64) (s : State) : (s.complete c x).mem = s.mem := rfl
@[simp] theorem State.complete_recorded (c : ErrCode) (x : Word64) (s : State) : (s.complete c x).recorded = s.recorded := rfl
@[simp] theorem State.complete_platform (c : ErrCode) (x : Word64) (s : State) : (s.complete c x).platform = s.platform := rfl
@[simp] theorem State.complete_raced (c : ErrCode) (x : Word64) (s : State) : (s.complete c x).raced = false := rfl
@[simp] theorem State.complete_reply (c : ErrCode) (x : Word64) (s : State) : (s.complete c x).reply = s.reply := rfl
@[simp] theorem State.complete_inputs (c : ErrCode) (x : Word64) (s : State) : (s.complete c x).inputs = s.inputs := rfl
@[simp] theorem State.complete_draws (c : ErrCode) (x : Word64) (s : State) : (s.complete c x).draws = s.draws + 1 := rfl

@[simp] theorem State.raiseError_status (e : ErrorReport) (s : State) : (s.raiseError e).status = { s.status with busy := false, done := true, err := e.code } := rfl
@[simp] theorem State.raiseError_errInfo (e : ErrorReport) (s : State) : (s.raiseError e).errInfo = e.info := rfl
@[simp] theorem State.raiseError_msgBase (e : ErrorReport) (s : State) : (s.raiseError e).msgBase = s.msgBase := rfl
@[simp] theorem State.raiseError_msgLen (e : ErrorReport) (s : State) : (s.raiseError e).msgLen = s.msgLen := rfl
@[simp] theorem State.raiseError_outBase (e : ErrorReport) (s : State) : (s.raiseError e).outBase = s.outBase := rfl
@[simp] theorem State.raiseError_outCap (e : ErrorReport) (s : State) : (s.raiseError e).outCap = s.outCap := rfl
@[simp] theorem State.raiseError_snap (e : ErrorReport) (s : State) : (s.raiseError e).snap = Config.freeSnapshot s.draws := rfl
@[simp] theorem State.raiseError_ctx (e : ErrorReport) (s : State) : (s.raiseError e).ctx = Config.freeContext s.draws := rfl
@[simp] theorem State.raiseError_mem (e : ErrorReport) (s : State) : (s.raiseError e).mem = s.mem := rfl
@[simp] theorem State.raiseError_recorded (e : ErrorReport) (s : State) : (s.raiseError e).recorded = s.recorded := rfl
@[simp] theorem State.raiseError_platform (e : ErrorReport) (s : State) : (s.raiseError e).platform = s.platform := rfl
@[simp] theorem State.raiseError_raced (e : ErrorReport) (s : State) : (s.raiseError e).raced = false := rfl
@[simp] theorem State.raiseError_reply (e : ErrorReport) (s : State) : (s.raiseError e).reply = s.reply := rfl
@[simp] theorem State.raiseError_inputs (e : ErrorReport) (s : State) : (s.raiseError e).inputs = s.inputs := rfl
@[simp] theorem State.raiseError_draws (e : ErrorReport) (s : State) : (s.raiseError e).draws = s.draws + 1 := rfl

@[simp] theorem State.withMem_status (m : Memory) (s : State) : (s.withMem m).status = s.status := rfl
@[simp] theorem State.withMem_errInfo (m : Memory) (s : State) : (s.withMem m).errInfo = s.errInfo := rfl
@[simp] theorem State.withMem_msgBase (m : Memory) (s : State) : (s.withMem m).msgBase = s.msgBase := rfl
@[simp] theorem State.withMem_msgLen (m : Memory) (s : State) : (s.withMem m).msgLen = s.msgLen := rfl
@[simp] theorem State.withMem_outBase (m : Memory) (s : State) : (s.withMem m).outBase = s.outBase := rfl
@[simp] theorem State.withMem_outCap (m : Memory) (s : State) : (s.withMem m).outCap = s.outCap := rfl
@[simp] theorem State.withMem_snap (m : Memory) (s : State) : (s.withMem m).snap = s.snap := rfl
@[simp] theorem State.withMem_ctx (m : Memory) (s : State) : (s.withMem m).ctx = s.ctx := rfl
@[simp] theorem State.withMem_mem (m : Memory) (s : State) : (s.withMem m).mem = m := rfl
@[simp] theorem State.withMem_recorded (m : Memory) (s : State) : (s.withMem m).recorded = s.recorded := rfl
@[simp] theorem State.withMem_platform (m : Memory) (s : State) : (s.withMem m).platform = s.platform := rfl
@[simp] theorem State.withMem_raced (m : Memory) (s : State) : (s.withMem m).raced = s.raced := rfl
@[simp] theorem State.withMem_reply (m : Memory) (s : State) : (s.withMem m).reply = s.reply := rfl
@[simp] theorem State.withMem_inputs (m : Memory) (s : State) : (s.withMem m).inputs = s.inputs := rfl
@[simp] theorem State.withMem_draws (m : Memory) (s : State) : (s.withMem m).draws = s.draws := rfl

@[simp] theorem State.countDraw_status (s : State) : (s.countDraw).status = s.status := rfl
@[simp] theorem State.countDraw_errInfo (s : State) : (s.countDraw).errInfo = s.errInfo := rfl
@[simp] theorem State.countDraw_msgBase (s : State) : (s.countDraw).msgBase = s.msgBase := rfl
@[simp] theorem State.countDraw_msgLen (s : State) : (s.countDraw).msgLen = s.msgLen := rfl
@[simp] theorem State.countDraw_outBase (s : State) : (s.countDraw).outBase = s.outBase := rfl
@[simp] theorem State.countDraw_outCap (s : State) : (s.countDraw).outCap = s.outCap := rfl
@[simp] theorem State.countDraw_snap (s : State) : (s.countDraw).snap = s.snap := rfl
@[simp] theorem State.countDraw_ctx (s : State) : (s.countDraw).ctx = s.ctx := rfl
@[simp] theorem State.countDraw_mem (s : State) : (s.countDraw).mem = s.mem := rfl
@[simp] theorem State.countDraw_recorded (s : State) : (s.countDraw).recorded = s.recorded := rfl
@[simp] theorem State.countDraw_platform (s : State) : (s.countDraw).platform = s.platform := rfl
@[simp] theorem State.countDraw_raced (s : State) : (s.countDraw).raced = s.raced := rfl
@[simp] theorem State.countDraw_reply (s : State) : (s.countDraw).reply = s.reply := rfl
@[simp] theorem State.countDraw_inputs (s : State) : (s.countDraw).inputs = s.inputs := rfl
@[simp] theorem State.countDraw_draws (s : State) : (s.countDraw).draws = s.draws + 1 := rfl

@[simp] theorem State.withInputs_status (xs : List Input) (s : State) : (s.withInputs xs).status = s.status := rfl
@[simp] theorem State.withInputs_errInfo (xs : List Input) (s : State) : (s.withInputs xs).errInfo = s.errInfo := rfl
@[simp] theorem State.withInputs_msgBase (xs : List Input) (s : State) : (s.withInputs xs).msgBase = s.msgBase := rfl
@[simp] theorem State.withInputs_msgLen (xs : List Input) (s : State) : (s.withInputs xs).msgLen = s.msgLen := rfl
@[simp] theorem State.withInputs_outBase (xs : List Input) (s : State) : (s.withInputs xs).outBase = s.outBase := rfl
@[simp] theorem State.withInputs_outCap (xs : List Input) (s : State) : (s.withInputs xs).outCap = s.outCap := rfl
@[simp] theorem State.withInputs_snap (xs : List Input) (s : State) : (s.withInputs xs).snap = s.snap := rfl
@[simp] theorem State.withInputs_ctx (xs : List Input) (s : State) : (s.withInputs xs).ctx = s.ctx := rfl
@[simp] theorem State.withInputs_mem (xs : List Input) (s : State) : (s.withInputs xs).mem = s.mem := rfl
@[simp] theorem State.withInputs_recorded (xs : List Input) (s : State) : (s.withInputs xs).recorded = s.recorded := rfl
@[simp] theorem State.withInputs_platform (xs : List Input) (s : State) : (s.withInputs xs).platform = s.platform := rfl
@[simp] theorem State.withInputs_raced (xs : List Input) (s : State) : (s.withInputs xs).raced = s.raced := rfl
@[simp] theorem State.withInputs_reply (xs : List Input) (s : State) : (s.withInputs xs).reply = s.reply := rfl
@[simp] theorem State.withInputs_inputs (xs : List Input) (s : State) : (s.withInputs xs).inputs = xs := rfl
@[simp] theorem State.withInputs_draws (xs : List Input) (s : State) : (s.withInputs xs).draws = s.draws := rfl

@[simp] theorem State.withReply_status (r : Reply) (s : State) : (s.withReply r).status = s.status := rfl
@[simp] theorem State.withReply_errInfo (r : Reply) (s : State) : (s.withReply r).errInfo = s.errInfo := rfl
@[simp] theorem State.withReply_msgBase (r : Reply) (s : State) : (s.withReply r).msgBase = s.msgBase := rfl
@[simp] theorem State.withReply_msgLen (r : Reply) (s : State) : (s.withReply r).msgLen = s.msgLen := rfl
@[simp] theorem State.withReply_outBase (r : Reply) (s : State) : (s.withReply r).outBase = s.outBase := rfl
@[simp] theorem State.withReply_outCap (r : Reply) (s : State) : (s.withReply r).outCap = s.outCap := rfl
@[simp] theorem State.withReply_snap (r : Reply) (s : State) : (s.withReply r).snap = s.snap := rfl
@[simp] theorem State.withReply_ctx (r : Reply) (s : State) : (s.withReply r).ctx = s.ctx := rfl
@[simp] theorem State.withReply_mem (r : Reply) (s : State) : (s.withReply r).mem = s.mem := rfl
@[simp] theorem State.withReply_recorded (r : Reply) (s : State) : (s.withReply r).recorded = s.recorded := rfl
@[simp] theorem State.withReply_platform (r : Reply) (s : State) : (s.withReply r).platform = s.platform := rfl
@[simp] theorem State.withReply_raced (r : Reply) (s : State) : (s.withReply r).raced = s.raced := rfl
@[simp] theorem State.withReply_reply (r : Reply) (s : State) : (s.withReply r).reply = some r := rfl
@[simp] theorem State.withReply_inputs (r : Reply) (s : State) : (s.withReply r).inputs = s.inputs := rfl
@[simp] theorem State.withReply_draws (r : Reply) (s : State) : (s.withReply r).draws = s.draws := rfl

@[simp] theorem State.hashMessage_status (v : Variant) (s : State) : (s.hashMessage v).status = s.status := rfl
@[simp] theorem State.hashMessage_errInfo (v : Variant) (s : State) : (s.hashMessage v).errInfo = s.errInfo := rfl
@[simp] theorem State.hashMessage_msgBase (v : Variant) (s : State) : (s.hashMessage v).msgBase = s.msgBase := rfl
@[simp] theorem State.hashMessage_msgLen (v : Variant) (s : State) : (s.hashMessage v).msgLen = s.msgLen := rfl
@[simp] theorem State.hashMessage_outBase (v : Variant) (s : State) : (s.hashMessage v).outBase = s.outBase := rfl
@[simp] theorem State.hashMessage_outCap (v : Variant) (s : State) : (s.hashMessage v).outCap = s.outCap := rfl
@[simp] theorem State.hashMessage_snap (v : Variant) (s : State) : (s.hashMessage v).snap = s.snap := rfl
@[simp] theorem State.hashMessage_ctx (v : Variant) (s : State) : (s.hashMessage v).ctx = Context.hash v s.message := rfl
@[simp] theorem State.hashMessage_mem (v : Variant) (s : State) : (s.hashMessage v).mem = s.mem := rfl
@[simp] theorem State.hashMessage_recorded (v : Variant) (s : State) : (s.hashMessage v).recorded = s.recorded := rfl
@[simp] theorem State.hashMessage_platform (v : Variant) (s : State) : (s.hashMessage v).platform = s.platform := rfl
@[simp] theorem State.hashMessage_raced (v : Variant) (s : State) : (s.hashMessage v).raced = s.raced := rfl
@[simp] theorem State.hashMessage_reply (v : Variant) (s : State) : (s.hashMessage v).reply = s.reply := rfl
@[simp] theorem State.hashMessage_inputs (v : Variant) (s : State) : (s.hashMessage v).inputs = s.inputs := rfl
@[simp] theorem State.hashMessage_draws (v : Variant) (s : State) : (s.hashMessage v).draws = s.draws := rfl

@[simp] theorem State.writeOutput_status (b : Bool) (s : State) : (s.writeOutput b).status = s.status := rfl
@[simp] theorem State.writeOutput_errInfo (b : Bool) (s : State) : (s.writeOutput b).errInfo = s.errInfo := rfl
@[simp] theorem State.writeOutput_msgBase (b : Bool) (s : State) : (s.writeOutput b).msgBase = s.msgBase := rfl
@[simp] theorem State.writeOutput_msgLen (b : Bool) (s : State) : (s.writeOutput b).msgLen = s.msgLen := rfl
@[simp] theorem State.writeOutput_outBase (b : Bool) (s : State) : (s.writeOutput b).outBase = s.outBase := rfl
@[simp] theorem State.writeOutput_outCap (b : Bool) (s : State) : (s.writeOutput b).outCap = s.outCap := rfl
@[simp] theorem State.writeOutput_snap (b : Bool) (s : State) : (s.writeOutput b).snap = s.snap := rfl
@[simp] theorem State.writeOutput_ctx (b : Bool) (s : State) : (s.writeOutput b).ctx = s.ctx := rfl
@[simp] theorem State.writeOutput_mem (b : Bool) (s : State) : (s.writeOutput b).mem = s.mem.writeBytes s.snap.outBase.toNat (s.outputBytes b) := rfl
@[simp] theorem State.writeOutput_recorded (b : Bool) (s : State) : (s.writeOutput b).recorded = s.recorded := rfl
@[simp] theorem State.writeOutput_platform (b : Bool) (s : State) : (s.writeOutput b).platform = s.platform := rfl
@[simp] theorem State.writeOutput_raced (b : Bool) (s : State) : (s.writeOutput b).raced = s.raced := rfl
@[simp] theorem State.writeOutput_reply (b : Bool) (s : State) : (s.writeOutput b).reply = s.reply := rfl
@[simp] theorem State.writeOutput_inputs (b : Bool) (s : State) : (s.writeOutput b).inputs = s.inputs := rfl
@[simp] theorem State.writeOutput_draws (b : Bool) (s : State) : (s.writeOutput b).draws = s.draws := rfl

@[simp] theorem State.recordRace_status (s : State) : (s.recordRace).status = s.status := rfl
@[simp] theorem State.recordRace_errInfo (s : State) : (s.recordRace).errInfo = s.errInfo := rfl
@[simp] theorem State.recordRace_msgBase (s : State) : (s.recordRace).msgBase = s.msgBase := rfl
@[simp] theorem State.recordRace_msgLen (s : State) : (s.recordRace).msgLen = s.msgLen := rfl
@[simp] theorem State.recordRace_outBase (s : State) : (s.recordRace).outBase = s.outBase := rfl
@[simp] theorem State.recordRace_outCap (s : State) : (s.recordRace).outCap = s.outCap := rfl
@[simp] theorem State.recordRace_snap (s : State) : (s.recordRace).snap = s.snap := rfl
@[simp] theorem State.recordRace_ctx (s : State) : (s.recordRace).ctx = s.ctx := rfl
@[simp] theorem State.recordRace_mem (s : State) : (s.recordRace).mem = s.mem := rfl
@[simp] theorem State.recordRace_recorded (s : State) : (s.recordRace).recorded = some .hostRace := rfl
@[simp] theorem State.recordRace_platform (s : State) : (s.recordRace).platform = s.platform := rfl
@[simp] theorem State.recordRace_raced (s : State) : (s.recordRace).raced = true := rfl
@[simp] theorem State.recordRace_reply (s : State) : (s.recordRace).reply = s.reply := rfl
@[simp] theorem State.recordRace_inputs (s : State) : (s.recordRace).inputs = s.inputs := rfl
@[simp] theorem State.recordRace_draws (s : State) : (s.recordRace).draws = s.draws := rfl

end Sys2Proof.Machine
end

