-- ==== Sys2Proof/Laws/Execute.lean ====
section
/-! SUPPORT. What a HASH command's one step can do: when its checks pass, and the three ways it completes. -/

namespace Sys2Proof.Machine

/-- A least rejected byte lies in the region, is rejected, and no lower byte of the region is. -/
theorem Platform.leastRejected_eq_some {p : Platform} {base len a : Nat} {dir : Dir}
    (h : p.leastRejected base len dir = some a) :
    ∃ i, i < len ∧ a = base + i ∧ p.admits a dir = false ∧ ∀ j, j < i → p.admits (base + j) dir = true := by
  rw [Platform.leastRejected, Option.map_eq_some_iff] at h
  obtain ⟨i, hi, rfl⟩ := h
  rw [List.find?_range_eq_some] at hi
  obtain ⟨hr, hlt, hmin⟩ := hi
  exact ⟨i, List.mem_range.mp hlt, rfl, by simpa using hr, fun j hj => by simpa using hmin j hj⟩

/-- No byte of the region is rejected exactly when none is found. -/
theorem Platform.leastRejected_eq_none {p : Platform} {base len : Nat} {dir : Dir} :
    p.leastRejected base len dir = none ↔ ∀ i, i < len → p.admits (base + i) dir = true := by
  simp [Platform.leastRejected]

theorem wraps_eq_false {base len : Nat} : wraps base len = false ↔ (0 < len → base + len ≤ 2 ^ 64) := by
  by_cases h : 0 < len <;> simp [wraps, h]

theorem need_pos (v : Variant) (term : Bool) : 0 < need v term := by cases v <;> cases term <;> decide

/-- No check fails exactly when the spec's conditions of steps 2 to 8 all hold. -/
theorem firstError_eq_none {v : Variant} {term : Bool} {s : State} :
    firstError s.platform v term s.snap = none ↔ ChecksPass v term s := by
  constructor
  · intro h
    simp only [firstError] at h
    split at h
    · cases h
    split at h
    · cases h
    split at h
    · cases h
    split at h
    · cases h
    split at h
    · cases h
    split at h
    · cases h
    rename_i h2 _ h3 _ h4 _ h5 _ h6 _ h7
    refine ⟨?_, fun c hc => ?_, ?_, ?_, ?_, ?_, ?_⟩
    · unfold checkLength bitLength at h2
      split at h2
      · cases h2
      · omega
    · simpa [checkCapacity, hc] using h3
    · exact wraps_eq_false.mp (by simpa [checkMsgWrap] using h4)
    · exact Platform.leastRejected_eq_none.mp (by simpa [checkMsgBus] using h5)
    · simpa [checkOutCap] using h6
    · exact wraps_eq_false.mp (by simpa [checkOutWrap] using h7) (need_pos v term)
    · exact Platform.leastRejected_eq_none.mp (by simpa [checkOutBus] using h)
  · intro h
    have h2 : checkLength v s.snap = none := by
      rw [checkLength, bitLength, if_neg (Nat.not_le.mpr h.length)]
    have h3 : checkCapacity s.platform v s.snap = none := by
      unfold checkCapacity
      split
      · rfl
      · rename_i c hc; simpa using h.capacity c hc
    have h4 : checkMsgWrap s.snap = none := by
      simpa [checkMsgWrap] using wraps_eq_false.mpr h.msgFits
    have h5 : checkMsgBus s.platform s.snap = none := by
      simpa [checkMsgBus] using Platform.leastRejected_eq_none.mpr h.msgAdmitted
    have h6 : checkOutCap v term s.snap = none := by simpa [checkOutCap] using h.room
    have h7 : checkOutWrap v term s.snap = none := by
      simpa [checkOutWrap] using wraps_eq_false.mpr fun _ => h.outFits
    have h8 : checkOutBus s.platform v term s.snap = none := by
      simpa [checkOutBus] using Platform.leastRejected_eq_none.mpr h.outAdmitted
    simp only [firstError, h2, h3, h4, h5, h6, h7, h8]

/-- A failing check reports one of the six codes of steps 2 to 8: neither NONE nor ILLEGAL_COMMAND. -/
theorem firstError_code {p : Platform} {v : Variant} {term : Bool} {S : Snapshot} {e : ErrorReport}
    (h : firstError p v term S = some e) : e.code ≠ .none ∧ e.code ≠ .illegalCommand := by
  simp only [firstError] at h
  split at h
  · rename_i h'; cases h; simp only [checkLength] at h'; split at h' <;> cases h'; simp
  split at h
  · rename_i h'; cases h; simp only [checkCapacity] at h'; split at h'
    · cases h'
    · split at h' <;> cases h'; simp
  split at h
  · rename_i h'; cases h; simp only [checkMsgWrap] at h'; split at h' <;> cases h'; simp
  split at h
  · rename_i h'; cases h; simp only [checkMsgBus, Option.map_eq_some_iff] at h'
    obtain ⟨_, _, rfl⟩ := h'; simp
  split at h
  · rename_i h'; cases h; simp only [checkOutCap] at h'; split at h' <;> cases h'; simp
  split at h
  · rename_i h'; cases h; simp only [checkOutWrap] at h'; split at h' <;> cases h'; simp
  · simp only [checkOutBus, Option.map_eq_some_iff] at h
    obtain ⟨_, _, rfl⟩ := h; simp

/-- Everything a HASH command's step can do: the result is free after a race, an error is recorded and nothing is
written, or the digest is written and the command completes with NONE. -/
theorem runHash_cases (v : Variant) (term : Bool) (s : State) :
    (s.raced = true ∧ runHash v term s = s.completeRaced v term) ∨
    (s.raced = false ∧ ∃ e, firstError s.platform v term s.snap = some e ∧ runHash v term s = s.raiseError e) ∨
    (s.raced = false ∧ ChecksPass v term s ∧
      runHash v term s = ((s.hashMessage v).writeOutput term).complete .none 0) := by
  unfold runHash
  cases hr : s.raced
  · refine .inr ?_
    cases he : firstError s.platform v term s.snap with
    | some e => exact .inl ⟨rfl, e, rfl, by simp [State.execute, he]⟩
    | none => exact .inr ⟨rfl, firstError_eq_none.mp he, by simp [State.execute, he]⟩
  · exact .inl ⟨rfl, by simp⟩

/-- The memory a successful command leaves. -/
theorem mem_writeOutput (v : Variant) (term : Bool) (s : State) :
    ((s.hashMessage v).writeOutput term).mem =
      s.mem.writeBytes s.snap.outBase.toNat (digestText v s.message ++ terminator term) := by
  rw [State.writeOutput_mem, outputBytes_hashMessage]; rfl

/-- Every command's meaning is `runHash` at its variant and terminator. -/
theorem exec_eq (i : Instr) (s : State) : exec i s = .next (runHash i.variant i.term s) := by cases i <;> rfl

/-- A completed HASH command keeps everything `KeepsRegisters` names. -/
theorem runHash_keeps (v : Variant) (term : Bool) (s : State) : KeepsRegisters s (runHash v term s) := by
  rcases runHash_cases v term s with ⟨-, h⟩ | ⟨-, e, -, h⟩ | ⟨-, -, h⟩ <;> rw [h] <;> constructor <;> rfl

end Sys2Proof.Machine
end

