-- ==== Sys2Proof/Laws/HostPort.lean ====
section
/-! SUPPORT. What hosts and the platform do in one step: when the register port answers, and what each move leaves as it
was. -/

namespace Sys2Proof.Machine

/-- The register port at an offset of the block: a whole aligned access reaches the register of 10 R15. -/
theorem regSlot_offset (p : Platform) {off : Word64} (hlt : off.toNat < 0x100) (hal : off.toNat % 8 = 0) :
    regSlot p (p.regBase + off) 64 = .ok (regAt off) := by
  have h : p.regBase + off - p.regBase = off := by rw [BitVec.add_comm, BitVec.add_sub_cancel]
  rw [regSlot, h, if_neg (by omega), if_pos ⟨rfl, hal⟩]

/-- When the register port answers. -/
theorem regSlot_eq_ok {p : Platform} {addr : Word64} {width : Nat} {r : HostReg} :
    regSlot p addr width = .ok r ↔
      (addr - p.regBase).toNat < 0x100 ∧ width = 64 ∧ (addr - p.regBase).toNat % 8 = 0 ∧
        regAt (addr - p.regBase) = r := by
  rw [regSlot]
  split
  · constructor
    · intro h; cases h
    · rintro ⟨h, -⟩; omega
  · split
    · rename_i h1 h2
      constructor
      · intro h; cases h; exact ⟨by omega, h2.1, h2.2, rfl⟩
      · rintro ⟨-, -, -, rfl⟩; rfl
    · rename_i h1 h2
      constructor
      · intro h; cases h
      · rintro ⟨-, h3, h4, -⟩; exact absurd ⟨h3, h4⟩ h2

/-- A register read that has a step changes only the reply. -/
theorem hostRegRead_eq_next {addr : Word64} {width : Nat} {s t : State} (h : hostRegRead addr width s = .next t) :
    ∃ r, regSlot s.platform addr width = .ok r ∧ t = s.withReply (.word (s.readReg r)) := by
  unfold hostRegRead at h
  split at h
  · rename_i r hr; cases h; exact ⟨r, hr, rfl⟩
  · cases h

/-- A register write that has a step is the write of that register. -/
theorem hostRegWrite_eq_next {addr : Word64} {width : Nat} {v : Word64} {s t : State}
    (h : hostRegWrite addr width v s = .next t) :
    ∃ r, regSlot s.platform addr width = .ok r ∧ t = s.writeReg r v := by
  unfold hostRegWrite at h
  split at h
  · rename_i r hr; cases h; exact ⟨r, hr, rfl⟩
  · cases h

/-- What a register write can do. -/
theorem writeReg_cases (r : HostReg) (v : Word64) (s : State) :
    (r = .cmd ∧ s.status.busy = true ∧ s.writeReg r v = s.overrun) ∨
    (r = .cmd ∧ s.status.busy = false ∧ s.writeReg r v = s.accept v) ∨
    (r = .msgBase ∧ s.writeReg r v = { s with msgBase := v }) ∨
    (r = .msgLen ∧ s.writeReg r v = { s with msgLen := v }) ∨
    (r = .outBase ∧ s.writeReg r v = { s with outBase := v }) ∨
    (r = .outCap ∧ s.writeReg r v = { s with outCap := v }) ∨
    ((r = .status ∨ r = .errInfo ∨ r = .reserved) ∧ s.writeReg r v = s) := by
  cases r <;> cases hb : s.status.busy <;> simp [State.writeReg, State.writeCmd, hb]

/-- What a data read can do: it draws a free byte, or it returns the byte that stands there. -/
theorem hostDataRead_cases (addr : Word64) (s : State) :
    (s.status.busy = true ∧ s.snap.inOutput addr.toNat = true ∧ hostDataRead addr s =
      s.countDraw.withReply (.byte (Config.freeByte s.draws addr.toNat))) ∨
    ((s.status.busy = false ∨ s.snap.inOutput addr.toNat = false) ∧
      hostDataRead addr s = s.withReply (.byte (s.mem.read addr.toNat))) := by
  cases hb : s.status.busy <;> cases ho : s.snap.inOutput addr.toNat <;> simp [hostDataRead, hb, ho]

/-- What a data write can do: the byte lands, and the race rule marks it or not. -/
theorem hostDataWrite_cases (addr : Word64) (v : Byte) (s : State) :
    (s.status.busy = true ∧ (s.snap.inMessage addr.toNat = true ∨ s.snap.inOutput addr.toNat = true) ∧
      hostDataWrite addr v s = (s.withMem (s.mem.write addr.toNat v)).recordRace) ∨
    ((s.status.busy = false ∨ (s.snap.inMessage addr.toNat = false ∧ s.snap.inOutput addr.toNat = false)) ∧
      hostDataWrite addr v s = s.withMem (s.mem.write addr.toNat v)) := by
  cases hb : s.status.busy <;> cases hm : s.snap.inMessage addr.toNat <;> cases ho : s.snap.inOutput addr.toNat <;>
    simp [hostDataWrite, hb, hm, ho]

/-- The memory a reset leaves. -/
theorem resetEngine_mem (s : State) :
    (resetEngine s).mem =
      if s.status.busy then Memory.forget s.draws s.mem s.snap.outBase.toNat s.snap.abandonedSize else s.mem := by
  cases hb : s.status.busy <;> simp [resetEngine, State.abandon, State.forgetInternal, hb]

/-- What a reset leaves in the registers and the marks. -/
theorem resetEngine_rest (s : State) :
    (resetEngine s).status = Status.reset ∧ (resetEngine s).errInfo = 0 ∧ (resetEngine s).msgBase = 0 ∧
      (resetEngine s).msgLen = 0 ∧ (resetEngine s).outBase = 0 ∧ (resetEngine s).outCap = 0 ∧
      (resetEngine s).recorded = s.recorded ∧ (resetEngine s).platform = s.platform ∧
      (resetEngine s).raced = false ∧ (resetEngine s).inputs = s.inputs := by
  cases hb : s.status.busy <;>
    simp [resetEngine, State.abandon, State.forgetInternal, Status.afterReset, Status.reset, hb]

end Sys2Proof.Machine
end

