-- ==== Sys2Proof/Laws/Operands.lean ====
section
/-! SUPPORT. The regions of a snapshot, as the inequalities the spec writes. -/

namespace Sys2Proof.Machine

theorem inRegion_iff {base len a : Nat} : inRegion base len a = true ↔ base ≤ a ∧ a < base + len := by
  simp [inRegion]

/-- The output region of a legal command (00 glossary). -/
theorem Snapshot.outputSize_ok {S : Snapshot} {i : Instr} (h : decode S.cmd = .ok i) :
    S.outputSize = need i.variant i.term := by rw [Snapshot.outputSize, h]

theorem Snapshot.outputSize_error {S : Snapshot} {e : DecodeError} (h : decode S.cmd = .error e) :
    S.outputSize = 0 := by rw [Snapshot.outputSize, h]

theorem Snapshot.messageSize_ok {S : Snapshot} {i : Instr} (h : decode S.cmd = .ok i) :
    S.messageSize = S.msgLen.toNat := by rw [Snapshot.messageSize, h]

theorem Snapshot.messageSize_error {S : Snapshot} {e : DecodeError} (h : decode S.cmd = .error e) :
    S.messageSize = 0 := by rw [Snapshot.messageSize, h]

/-- When a byte lies in the output region: the word is legal and the byte is one of its `need` bytes. -/
theorem Snapshot.inOutput_iff {S : Snapshot} {a : Nat} :
    S.inOutput a = true ↔
      ∃ i, decode S.cmd = .ok i ∧ S.outBase.toNat ≤ a ∧ a < S.outBase.toNat + need i.variant i.term := by
  rw [Snapshot.inOutput, inRegion_iff]
  cases hd : decode S.cmd with
  | ok i =>
    rw [Snapshot.outputSize_ok hd]
    exact ⟨fun h => ⟨i, rfl, h⟩, fun ⟨j, hj, h⟩ => by cases hj; exact h⟩
  | error e =>
    rw [Snapshot.outputSize_error hd]
    exact ⟨fun h => by omega, fun ⟨_, hj, _⟩ => nomatch hj⟩

/-- When a byte lies in the message region: the word is legal and the byte is one of the message's. -/
theorem Snapshot.inMessage_iff {S : Snapshot} {a : Nat} :
    S.inMessage a = true ↔
      (∃ i, decode S.cmd = .ok i) ∧ S.msgBase.toNat ≤ a ∧ a < S.msgBase.toNat + S.msgLen.toNat := by
  rw [Snapshot.inMessage, inRegion_iff]
  cases hd : decode S.cmd with
  | ok i => rw [Snapshot.messageSize_ok hd]; exact ⟨fun h => ⟨⟨i, rfl⟩, h⟩, fun h => h.2⟩
  | error e =>
    rw [Snapshot.messageSize_error hd]
    exact ⟨fun h => by omega, fun ⟨⟨_, hj⟩, _⟩ => nomatch hj⟩

/-- A reset reaches no byte past the output region (70 R271). -/
theorem Snapshot.abandonedSize_le (S : Snapshot) : S.abandonedSize ≤ S.outputSize := by
  unfold Snapshot.abandonedSize
  split
  · exact Nat.min_le_right _ _
  · exact Nat.zero_le _

end Sys2Proof.Machine
end

