-- ==== Sys2Proof/Laws/Step.lean ====
section
/-! SUPPORT. What one step can do, move by move. -/

namespace Sys2Proof.Machine

theorem step_of_nil {s : State} (h : s.inputs = []) : step s = engineTurn s := by rw [step, nextMove, h]

theorem step_of_cons {s : State} {x : Input} {rest : List Input} (h : s.inputs = x :: rest) :
    step s = takeInput x (s.withInputs rest) := by rw [step, nextMove, h]

/-- A run of one more step begins with a step. -/
theorem runSteps_succ {s t : State} (h : step s = .next t) (k : Nat) : runSteps (k + 1) s = runSteps k t := by
  rw [runSteps, h]

@[simp] theorem runSteps_zero (s : State) : runSteps 0 s = .next s := rfl

/-- The engine's turn always has a next state, one of three. -/
theorem engineTurn_cases (s : State) :
    (s.status.busy = false ∧ engineTurn s = .next s) ∨
    (s.status.busy = true ∧ ∃ i, decode s.snap.cmd = .ok i ∧ engineTurn s = .next (runHash i.variant i.term s)) ∨
    (s.status.busy = true ∧ ∃ e, decode s.snap.cmd = .error e ∧ engineTurn s = .next (illegalCommand s)) := by
  unfold engineTurn
  cases hb : s.status.busy
  · exact .inl ⟨rfl, by simp⟩
  · cases hd : decode s.snap.cmd with
    | ok i => exact .inr (.inl ⟨rfl, i, rfl, by simp [exec_eq]⟩)
    | error e => exact .inr (.inr ⟨rfl, e, rfl, by simp⟩)

/-- Everything a step that answers a next state can be: the engine's turn, or one host or platform move taken from the
queue. -/
theorem step_cases {s t : State} (h : step s = .next t) :
    (s.inputs = [] ∧ engineTurn s = .next t) ∨
    ∃ x rest, s.inputs = x :: rest ∧
      ((x = .engine ∧ engineTurn (s.withInputs rest) = .next t) ∨
       (∃ addr width r, x = .regRead addr width ∧ regSlot s.platform addr width = .ok r ∧
          t = (s.withInputs rest).withReply (.word (s.readReg r))) ∨
       (∃ addr width v r, x = .regWrite addr width v ∧ regSlot s.platform addr width = .ok r ∧
          t = (s.withInputs rest).writeReg r v) ∨
       (∃ addr, x = .dataRead addr ∧ t = hostDataRead addr (s.withInputs rest)) ∨
       (∃ addr v, x = .dataWrite addr v ∧ t = hostDataWrite addr v (s.withInputs rest)) ∨
       (x = .reset ∧ t = resetEngine (s.withInputs rest))) := by
  cases hi : s.inputs with
  | nil => exact .inl ⟨rfl, by rw [← h, step_of_nil hi]⟩
  | cons x rest =>
    refine .inr ⟨x, rest, rfl, ?_⟩
    rw [step_of_cons hi] at h
    cases x with
    | regRead addr width =>
      obtain ⟨r, hr, rfl⟩ := hostRegRead_eq_next h
      exact .inr (.inl ⟨addr, width, r, rfl, hr, by cases r <;> rfl⟩)
    | regWrite addr width v =>
      obtain ⟨r, hr, rfl⟩ := hostRegWrite_eq_next h
      exact .inr (.inr (.inl ⟨addr, width, v, r, rfl, hr, rfl⟩))
    | dataRead addr => cases h; exact .inr (.inr (.inr (.inl ⟨addr, rfl, rfl⟩)))
    | dataWrite addr v => cases h; exact .inr (.inr (.inr (.inr (.inl ⟨addr, v, rfl, rfl⟩))))
    | engine => exact .inl ⟨rfl, h⟩
    | reset => cases h; exact .inr (.inr (.inr (.inr (.inr ⟨rfl, rfl⟩))))

end Sys2Proof.Machine
end

