-- ==== Sys2Proof/Laws/PerInstr.lean ====
section
/-! SUPPORT. One lemma per command about the command as syntax: it is well formed, and its word carries legal fields with
the VAR and TERM of 30 R56. -/

namespace Sys2Proof.Laws.EncodingLegal

open Sys2Proof

/-- The command is well formed, and its encoding is a legal word of its variant and terminator (30 R54, R56). -/
def Statement (i : Instr) : Prop :=
  i.wellFormed = true ∧ (CommandWord.ofBits (encode i)).wellFormed = true ∧
    (CommandWord.ofBits (encode i)).var = decide (i.variant = .v512) ∧
    (CommandWord.ofBits (encode i)).term = i.term

theorem hash256 : Statement .hash256 := by unfold Statement; decide

theorem hash256t : Statement .hash256t := by unfold Statement; decide

theorem hash512 : Statement .hash512 := by unfold Statement; decide

theorem hash512t : Statement .hash512t := by unfold Statement; decide

end Sys2Proof.Laws.EncodingLegal
end

