-- ==== Sys2Proof/Tests/Slice0.lean ====
section
/-! SUPPORT. The model's own tests: the spec's vectors (95) on components and on single commands, the decoder on words
written out from 30 R56, the ill-formed words of 30 R54, and a witness for the hypotheses of every statement. Expected
values come from the spec; each test names its source. -/

namespace Sys2Proof.Tests

open Sys2Proof Sys2Proof.Machine

/-! ### Well-formedness (30 R54): an ill-formed word for each check -/

theorem test_wellFormed_legal : CommandWord.wellFormed { rsv := 0, term := true, var := true, opc := 0x01 } = true := by
  decide

theorem test_wellFormed_opcode : CommandWord.wellFormed { rsv := 0, term := false, var := false, opc := 0x02 } = false := by
  decide

theorem test_wellFormed_reserved :
    CommandWord.wellFormed { rsv := 1, term := false, var := false, opc := 0x01 } = false := by decide

/-! ### Decoding (30 R56, 95 E10 to E13) -/

theorem test_decode_hash256 :
    decode 0b0000000000000000000000000000000000000000000000000000000000000001 = .ok .hash256 := by decide

theorem test_decode_hash256t :
    decode 0b0000000000000000000000000000000000000000000000000000001000000001 = .ok .hash256t := by decide

theorem test_decode_hash512 :
    decode 0b0000000000000000000000000000000000000000000000000000000100000001 = .ok .hash512 := by decide

theorem test_decode_hash512t :
    decode 0b0000000000000000000000000000000000000000000000000000001100000001 = .ok .hash512t := by decide

theorem test_decode_illegal :
    decode 0x0 = .error .reservedOpcode ∧ decode 0x2 = .error .reservedOpcode ∧
      decode 0x401 = .error .reservedBits ∧ decode 0x8000000000000001 = .error .reservedBits := by decide

theorem test_decodeTableWord :
    decodeTableWord 64 0x201 = some .hash256t ∧ decodeTableWord 64 0x401 = none ∧ decodeTableWord 65 0x1 = none := by
  decide

/-! ### The datapath (95 sections 2.1 to 2.8) -/

/-- 95 section 2.1. -/
theorem test_modAdd : modAdd (w := 32) 0x80000000 0x80000000 = 0 ∧ modAdd (w := 64) 0xffffffffffffffff 0xffffffffffffffff
    = 0xfffffffffffffffe := by decide

/-- 95 section 2.2. -/
theorem test_rotr_shr : rotr 8 (0x12345678 : BitVec 32) = 0x78123456 ∧ rotr 61 (0x8000000000000001 : BitVec 64) = 0xc ∧
    shr 3 (0x80000000 : BitVec 32) = 0x10000000 := by decide

/-- 95 section 2.3. -/
theorem test_ch_maj : ch (w := 32) 0xff00ff00 0x12345678 0x9abcdef0 = 0x12bc56f0 ∧
    maj (w := 32) 0xff00ff00 0x12345678 0x9abcdef0 = 0x9a34de70 := by decide

/-- 95 section 2.4, VAR = 0. -/
theorem test_sigma256 : bigSigma (w := 32) params256.bigSigma0 0x6a09e667 = 0xce20b47e ∧
    bigSigma (w := 32) params256.bigSigma1 0x510e527f = 0x3587272b ∧
    smallSigma (w := 32) params256.smallSigma0 0xffffffff = 0x1fffffff ∧ smallSigma (w := 32) params256.smallSigma1 1 = 0x0000a000 := by
  decide

/-- 95 section 2.4, VAR = 1. -/
theorem test_sigma512 : bigSigma (w := 64) params512.bigSigma0 0x6a09e667f3bcc908 = 0x08c4db56aac80c2a ∧
    bigSigma (w := 64) params512.bigSigma1 0x510e527fade682d1 = 0x9427e33bb5c9dbca ∧
    smallSigma (w := 64) params512.smallSigma0 0x6162638000000000 = 0x3012976480000000 ∧
    smallSigma (w := 64) params512.smallSigma1 0x18 = 0x00030000000000c0 := by decide

/-- 95 section 2.5: `k` and the padded length, on both sides of a block boundary. -/
theorem test_padder : zeroPadding .v256 55 = 7 ∧ zeroPadding .v256 56 = 511 ∧ paddedLength .v256 (2 ^ 61 - 1) = 2 ^ 61 + 64 ∧
    zeroPadding .v512 111 = 7 ∧ zeroPadding .v512 112 = 1023 ∧ paddedLength .v512 (2 ^ 61) = 2 ^ 61 + 128 := by
  decide +kernel

/-- The message "abc" of 95 V1. -/
def abc : List Byte := [0x61, 0x62, 0x63]

/-- 41 R134 example: the padded "abc". -/
theorem test_pad_abc : pad .v256 abc = [0x61, 0x62, 0x63, 0x80] ++ zeroBytes 52 ++ [0, 0, 0, 0, 0, 0, 0, 0x18] := by
  decide +kernel

/-- 95 section 2.6, VAR = 0. -/
theorem test_schedule256 : (schedule params256 (pad .v256 abc)).getD 19 0 = 0x600003c6 ∧
    (schedule params256 (pad .v256 abc)).getD 63 0 = 0x12b1edeb := by decide +kernel

/-- 95 section 2.6, VAR = 1. -/
theorem test_schedule512 : (schedule params512 (pad .v512 abc)).getD 19 0 = 0x00000c0060000603 ∧
    (schedule params512 (pad .v512 abc)).getD 79 0 = 0x92aeeed1a7bcf7d2 := by decide +kernel

/-- 95 section 2.7: the working variables of "abc" after round 0. -/
theorem test_round0 : roundStep params256 (Work.ofChain iv256) 0x428a2f98 0x61626380 =
    ⟨0x5d6aebcd, 0x6a09e667, 0xbb67ae85, 0x3c6ef372, 0xfa2a4622, 0x510e527f, 0x9b05688c, 0x1f83d9ab⟩ := by decide

/-- 95 V8, two blocks: the first word of the chaining state after block 0 and the last word after block 1. -/
theorem test_chaining :
    let blks := blocks .v256 (pad .v256 [0x61, 0x62, 0x63, 0x64, 0x62, 0x63, 0x64, 0x65, 0x63, 0x64, 0x65, 0x66, 0x64, 0x65, 0x66, 0x67, 0x65, 0x66, 0x67, 0x68, 0x66, 0x67, 0x68, 0x69, 0x67, 0x68, 0x69, 0x6a, 0x68, 0x69, 0x6a, 0x6b, 0x69, 0x6a, 0x6b, 0x6c, 0x6a, 0x6b, 0x6c, 0x6d, 0x6b, 0x6c, 0x6d, 0x6e, 0x6c, 0x6d, 0x6e, 0x6f, 0x6d, 0x6e, 0x6f, 0x70, 0x6e, 0x6f, 0x70, 0x71])
    (Datapath.run params256 (blks.take 1)).chain.h0 = 0x85e655d6 ∧
      (Datapath.run params256 blks).chain.h7 = 0x19db06c1 := by decide +kernel

/-- 95 section 2.8. -/
theorem test_render : render (0xba7816bf : BitVec 32) = [0x62, 0x61, 0x37, 0x38, 0x31, 0x36, 0x62, 0x66] ∧
    render (0x0000000f : BitVec 32) = [0x30, 0x30, 0x30, 0x30, 0x30, 0x30, 0x30, 0x66] := by decide

/-! ### States for the tests -/

/-- A command just accepted, with its word, message region, output region and capacity; "abc" then "d" at 0x1000. -/
def running (cmd msgBase msgLen outBase outCap : Word64) : State :=
  { State.reset with
    status := { busy := true, done := false, ovr := false, err := .none }
    snap := { cmd := cmd, msgBase := msgBase, msgLen := msgLen, outBase := outBase, outCap := outCap }
    mem := [(0x1000, 0x61), (0x1001, 0x62), (0x1002, 0x63), (0x1003, 0x64)] }

/-- The next state of an outcome, if it is one. -/
def nextOf : Host.Outcome State Fault Refusal → Option State
  | .next s => some s
  | .fault _ => none
  | .refused _ => none

/-- STATUS and ERR_INFO after a command. -/
def report (i : Instr) (s : State) : Option (Word64 × Word64) :=
  (nextOf (exec i s)).map fun t => (t.status.word, t.errInfo)

/-- The integer that `n` bytes at an address encode after a command, first byte most significant. -/
def bytesAfter (i : Instr) (s : State) (a n : Nat) : Option Nat :=
  (nextOf (exec i s)).map fun t => fromBigEndian ((List.range n).map fun j => t.mem.read (a + j))

/-! ### The commands, two tests each (95 V1, V3, V7, E3 to E6) -/

/-- 95 P1: ASCII V1 at 0x2000. -/
theorem test_hash256_abc : bytesAfter .hash256 (running 0x001 0x1000 3 0x2000 64) 0x2000 64 = some
    0x62613738313662663866303163666561343134313430646535646165323232336230303336316133393631373761396362343130666636316632303031356164 := by decide +kernel

/-- 95 E3: STATUS 0x22 and ERR_INFO 64. -/
theorem test_hash256_small : report .hash256 (running 0x001 0x1000 3 0x2000 63) = some (0x22, 0x40) := by decide +kernel

/-- 95 P4 and P6: V1 and a terminator, over the message itself. -/
theorem test_hash256t_overlap : bytesAfter .hash256t (running 0x201 0x1000 3 0x1000 65) 0x1000 66 = some
    (0x62613738313662663866303163666561343134313430646535646165323232336230303336316133393631373761396362343130666636316632303031356164 * 65536) := by decide +kernel

/-- 95 E4. -/
theorem test_hash256t_small : report .hash256t (running 0x201 0x1000 3 0x2000 64) = some (0x22, 0x41) := by
  decide +kernel

/-- 95 V7: ASCII of the SHA-512 digest of "abc". -/
theorem test_hash512_abc : bytesAfter .hash512 (running 0x101 0x1000 3 0x2000 128) 0x2000 128 = some
    0x6464616633356131393336313761626163633431373334396165323034313331313265366661346538396139376561323061396565656536346235356433396132313932393932613237346663316138333662613363323361336665656262643435346434343233363433636538306532613961633934666135346361343966 := by decide +kernel

/-- 95 E5. -/
theorem test_hash512_small : report .hash512 (running 0x101 0x1000 3 0x2000 127) = some (0x22, 0x80) := by decide +kernel

/-- 95 P2: ASCII V3 and the terminator. -/
theorem test_hash512t_empty : bytesAfter .hash512t (running 0x301 0 0 0x3000 129) 0x3000 129 = some
    (0x6366383365313335376565666238626466313534323835306436366438303037643632306534303530623537313564633833663461393231643336636539636534376430643133633564383566326230666638333138643238373765656332663633623933316264343734313761383161353338333237616639323764613365 * 256) := by decide +kernel

/-- 95 E6. -/
theorem test_hash512t_small : report .hash512t (running 0x301 0x1000 3 0x2000 128) = some (0x22, 0x81) := by
  decide +kernel

/-! ### The register port and the fetch (95 section 2.11) -/

/-- A host write of MSG_LEN keeps all 64 bits. -/
theorem test_write_msgLen :
    (nextOf (step (State.reset.withInputs [.regWrite 0x18 64 0xffffffffffffffff]))).map (·.msgLen) =
      some 0xffffffffffffffff := by decide

/-- Acceptance: STATUS reads 0x01. -/
theorem test_accept :
    (nextOf (step (State.reset.withInputs [.regWrite 0x00 64 0x401]))).map (fun t => (t.status.word, t.snap.cmd)) =
      some (0x01, 0x401) := by decide

/-- 95 E12: an illegal word completes with STATUS 0x42 and itself in ERR_INFO. -/
theorem test_illegal :
    (nextOf (step (running 0x401 0x1000 3 0x2000 64))).map (fun t => (t.status.word, t.errInfo)) =
      some (0x42, 0x401) := by decide

/-- A 32-bit access is refused. -/
theorem test_partial_refused : nextOf (step (State.reset.withInputs [.regRead 0x08 32])) = none := by decide

/-- The first step after reset with a command placed runs it (45 R216; 95 P5 (b): BUFFER_TOO_SMALL, 0x40). -/
theorem test_fetch_word : step (State.reset.withFetchWord 64 0x001) =
    exec .hash256 ((State.reset.accept 0x001).withInputs []) := rfl

theorem test_fetch_report :
    (nextOf (step (State.reset.withFetchWord 64 0x001))).map (fun t => (t.status.word, t.errInfo)) =
      some (0x22, 0x40) := by decide +kernel

/-! ### Witnesses: states and operands that meet the hypotheses of each statement -/

/-- `running` with its moves still to come. -/
def runningWith (xs : List Input) (cmd msgBase msgLen outBase outCap : Word64) : State :=
  (running cmd msgBase msgLen outBase outCap).withInputs xs

/-- A state whose next move is `x`, idle and just after reset. -/
def idleWith (x : Input) : State := State.reset.withInputs [x]

/-- "abc" at 0x1000 to be hashed to 0x2000 by the given word. -/
def hashAbc (x : Input) (cmd : Word64) : State := runningWith [x] cmd 0x1000 3 0x2000 200

theorem running_wf (cmd a n o c : Word64) : Memory.wf (running cmd a n o c).mem := by
  show Memory.wf [(0x1000, 0x61), (0x1001, 0x62), (0x1002, 0x63), (0x1003, 0x64)]
  decide

/-- FourLegalCommandWords, LegalIffOpcodeAndReserved, DecodeIffEncode. -/
theorem witness_legal : decode 0x301 = .ok .hash512t ∧ Instr.wellFormed .hash512t = true := by decide

/-- StepRunsDecodedCommand: the engine's move is the oldest, or no move is left. -/
theorem witness_StepRunsDecodedCommand :
    (hashAbc .engine 0x201).inputs = .engine :: [] ∧ (running 0x201 0x1000 3 0x2000 65).inputs = [] ∧
      (hashAbc .engine 0x201).status.busy = true ∧ decode (hashAbc .engine 0x201).snap.cmd = .ok .hash256t := by decide

/-- IdleEngineDoesNothing, EngineNeverStops. -/
theorem witness_IdleEngine :
    State.reset.inputs = [] ∧ State.reset.status.busy = false ∧ State.reset.engineNext = true ∧
      (idleWith .engine).inputs = .engine :: [] ∧ (idleWith .engine).engineNext = true := by decide

/-- IllegalWordCompletes: an opcode of 0x00, and a reserved bit at either end of RSV. -/
theorem witness_IllegalWordCompletes :
    (hashAbc .engine 0x0).snap.cmd.extractLsb' 0 8 ≠ 0x01 ∧ (hashAbc .engine 0x401).snap.cmd.extractLsb' 10 54 ≠ 0 ∧
      (hashAbc .engine 0x8000000000000001).snap.cmd.extractLsb' 10 54 ≠ 0 ∧
      (hashAbc .engine 0x401).status.busy = true ∧ (hashAbc .engine 0x401).inputs = .engine :: [] := by decide

/-- BusyCmdWriteDropped and IdleCmdWriteAccepted. -/
theorem witness_CmdWrite :
    (hashAbc (.regWrite 0 64 7) 0x001).inputs = .regWrite (hashAbc (.regWrite 0 64 7) 0x001).platform.regBase 64 7 :: [] ∧
      (hashAbc (.regWrite 0 64 7) 0x001).status.busy = true ∧
      (idleWith (.regWrite 0 64 7)).inputs = .regWrite (idleWith (.regWrite 0 64 7)).platform.regBase 64 7 :: [] ∧
      (idleWith (.regWrite 0 64 7)).status.busy = false := by decide

/-- RegisterReadReturns, at the first and the last offset of the block. -/
theorem witness_RegisterReadReturns :
    (idleWith (.regRead 0x00 64)).inputs = .regRead ((idleWith (.regRead 0x00 64)).platform.regBase + 0x00) 64 :: [] ∧
      (idleWith (.regRead 0xF8 64)).inputs = .regRead ((idleWith (.regRead 0xF8 64)).platform.regBase + 0xF8) 64 :: [] ∧
      (0x00 : Word64).toNat < 0x100 ∧ (0xF8 : Word64).toNat < 0x100 ∧ (0xF8 : Word64).toNat % 8 = 0 := by decide

/-- OperandWriteChangesItsRegister: each of the four registers, one of them while BUSY = 1. -/
theorem witness_OperandWriteChangesItsRegister :
    (idleWith (.regWrite 0x10 64 5)).inputs = .regWrite ((idleWith (.regWrite 0x10 64 5)).platform.regBase + 0x10) 64 5 :: [] ∧
    (idleWith (.regWrite 0x18 64 5)).inputs = .regWrite ((idleWith (.regWrite 0x18 64 5)).platform.regBase + 0x18) 64 5 :: [] ∧
    (idleWith (.regWrite 0x20 64 5)).inputs = .regWrite ((idleWith (.regWrite 0x20 64 5)).platform.regBase + 0x20) 64 5 :: [] ∧
    (hashAbc (.regWrite 0x28 64 5) 1).inputs =
      .regWrite ((hashAbc (.regWrite 0x28 64 5) 1).platform.regBase + 0x28) 64 5 :: [] := by decide

/-- ReservedSpaceReadsZero and ReadOnlyRegistersIgnoreWrites: both ends of the reserved offsets, STATUS and ERR_INFO. -/
theorem witness_ReservedSpace :
    (idleWith (.regRead 0x38 64)).inputs = .regRead ((idleWith (.regRead 0x38 64)).platform.regBase + 0x38) 64 :: [] ∧
    (idleWith (.regWrite 0xF8 64 5)).inputs = .regWrite ((idleWith (.regWrite 0xF8 64 5)).platform.regBase + 0xF8) 64 5 :: [] ∧
    (idleWith (.regWrite 0x08 64 5)).inputs = .regWrite ((idleWith (.regWrite 0x08 64 5)).platform.regBase + 0x08) 64 5 :: [] ∧
    (idleWith (.regWrite 0x30 64 5)).inputs = .regWrite ((idleWith (.regWrite 0x30 64 5)).platform.regBase + 0x30) 64 5 :: [] ∧
    0x38 ≤ (0x38 : Word64).toNat ∧ (0x38 : Word64).toNat % 8 = 0 := by decide

/-- PartialRegisterAccessRefused: another width, and an unaligned offset at the end of the block. -/
theorem witness_PartialRegisterAccessRefused :
    ((0x08 : Word64) - State.reset.platform.regBase).toNat < 0x100 ∧ (32 : Nat) ≠ 64 ∧
      ((0xFF : Word64) - State.reset.platform.regBase).toNat < 0x100 ∧
      ((0xFF : Word64) - State.reset.platform.regBase).toNat % 8 ≠ 0 ∧
      (idleWith (.regRead 0x08 32)).inputs = .regRead 0x08 32 :: [] ∧
      (idleWith (.regWrite 0xFF 64 1)).inputs = .regWrite 0xFF 64 1 :: [] := by decide

/-- DataReadReturns: the first and last byte of the output region (64 bytes), the bytes on either side of it, an idle
engine and an illegal word. -/
theorem witness_DataReadReturns :
    (hashAbc (.dataRead 0x2000) 1).inputs = .dataRead 0x2000 :: [] ∧ (hashAbc (.dataRead 0x2000) 1).status.busy = true ∧
      decode (hashAbc (.dataRead 0x2000) 1).snap.cmd = .ok .hash256 ∧
      (hashAbc (.dataRead 0x2000) 1).snap.outBase.toNat = 0x2000 ∧
      (0x203F : Word64).toNat < 0x2000 + need .v256 false ∧
      0x2000 + need .v256 false ≤ (0x2040 : Word64).toNat ∧ (0x1FFF : Word64).toNat < 0x2000 ∧
      (idleWith (.dataRead 0x2000)).status.busy = false ∧
      decode (hashAbc (.dataRead 0x2000) 2).snap.cmd = .error .reservedOpcode := by decide

/-- DataWriteRecordsRace: first and last byte of the message region (3 bytes) and of the output region (65 bytes), and
the bytes just past each. -/
theorem witness_DataWriteRecordsRace :
    (hashAbc (.dataWrite 0x1000 9) 0x201).inputs = .dataWrite 0x1000 9 :: [] ∧
      (hashAbc (.dataWrite 0x1000 9) 0x201).status.busy = true ∧
      decode (hashAbc (.dataWrite 0x1000 9) 0x201).snap.cmd = .ok .hash256t ∧
      (hashAbc (.dataWrite 0x1000 9) 0x201).snap.msgBase.toNat + (hashAbc .engine 0x201).snap.msgLen.toNat = 0x1003 ∧
      (0x2040 : Word64).toNat < (hashAbc .engine 0x201).snap.outBase.toNat + need .v256 true ∧
      ¬ (0x2041 : Word64).toNat < (hashAbc .engine 0x201).snap.outBase.toNat + need .v256 true ∧
      (idleWith (.dataWrite 0x1000 9)).status.busy = false ∧
      decode (hashAbc (.dataWrite 0x1000 9) 0x401).snap.cmd = .error .reservedBits := by decide

/-- DataWriteRecordsRace: a canonical memory, and an address beside the one written. -/
theorem witness_DataWrite_wf : Memory.wf (running 0x201 0x1000 3 0x2000 65).mem ∧ 0x1001 ≠ 0x1000 :=
  ⟨running_wf 0x201 0x1000 3 0x2000 65, by decide⟩

/-- The state after a host raced a running command. -/
def racedState : State :=
  { hashAbc .engine 0x001 with recorded := some .hostRace, raced := true }

/-- RaceMarkNeverCleared, RacedCommandResultIsFree. -/
theorem witness_raced : racedState.recorded = some .hostRace ∧ racedState.raced = true ∧
    (∃ t, step racedState = .next t) ∧ Memory.wf racedState.mem :=
  ⟨rfl, rfl, ⟨_, rfl⟩, running_wf 0x001 0x1000 3 0x2000 200⟩

/-- Hash256WritesDigest: capacity exactly 64. -/
theorem witness_Hash256 : ChecksPass .v256 false (running 0x001 0x1000 3 0x2000 64) ∧
    (running 0x001 0x1000 3 0x2000 64).raced = false :=
  ⟨firstError_eq_none.mp (by decide +kernel), rfl⟩

/-- Hash256tWritesDigestAndTerminator: capacity exactly 65, both regions ending at the top of the data space. -/
theorem witness_Hash256t : ChecksPass .v256 true (running 0x201 0xfffffffffffffffe 2 0xffffffffffffffbf 65) ∧
    (running 0x201 0xfffffffffffffffe 2 0xffffffffffffffbf 65).raced = false :=
  ⟨firstError_eq_none.mp (by decide +kernel), rfl⟩

/-- Hash512WritesDigest: capacity exactly 128. -/
theorem witness_Hash512 : ChecksPass .v512 false (running 0x101 0x1000 3 0x2000 128) ∧
    (running 0x101 0x1000 3 0x2000 128).raced = false :=
  ⟨firstError_eq_none.mp (by decide +kernel), rfl⟩

/-- Hash512tWritesDigestAndTerminator: capacity exactly 129, the empty message at the top address. -/
theorem witness_Hash512t : ChecksPass .v512 true (running 0x301 0xffffffffffffffff 0 0x2000 129) ∧
    (running 0x301 0xffffffffffffffff 0 0x2000 129).raced = false :=
  ⟨firstError_eq_none.mp (by decide +kernel), rfl⟩

/-- A running state on another platform. -/
def onPlatform (p : Platform) (s : State) : State := { s with platform := p }

/-- FirstFailingStepReported and FailedCommandWritesNothing, clause by clause: 95 E1, E7, E14, E19, E3, E18, E20, E17. -/
theorem witness_FirstFailingStep :
    report .hash256 (running 1 0x1000 0x2000000000000000 0x2000 64) = some (0x12, 0x2000000000000000) ∧
    report .hash256 (onPlatform ⟨some 64, [], 0⟩ (running 1 0x1000 56 0x2000 64)) = some (0x32, 0x38) ∧
    report .hash256 (running 1 0xfffffffffffffffe 3 0x2000 64) = some (0x52, 0xfffffffffffffffe) ∧
    report .hash256 (onPlatform ⟨none, [⟨0x1002, 0x1003, .read⟩], 0⟩ (running 1 0x1000 4 0x2000 64)) =
      some (0x72, 0x1002) ∧
    report .hash256 (running 1 0x1000 3 0x2000 63) = some (0x22, 0x40) ∧
    report .hash256t (running 0x201 0x1000 3 0xffffffffffffffc0 65) = some (0x62, 0xffffffffffffffc0) ∧
    report .hash256 (onPlatform ⟨none, [⟨0x2010, 2 ^ 64, .write⟩], 0⟩ (running 1 0x1000 4 0x2000 64)) =
      some (0x72, 0x2010) ∧
    report .hash256 (running 1 0x1000 3 0xffffffffffffffc0 64) = some (0x02, 0) ∧
    (running 1 0x1000 3 0x2000 64).raced = false := by decide +kernel

/-- LengthOverflowExactly: the two lengths at the boundary, and the longest for VAR = 1 (with a small PAD_CAPACITY, so
that the check is all that is asked: 95 E2, E26). -/
theorem witness_LengthOverflowExactly :
    report .hash256 (onPlatform ⟨some 64, [], 0⟩ (running 1 0x1000 0x1fffffffffffffff 0x2000 64)) =
      some (0x32, 0x1fffffffffffffff) ∧
    report .hash256t (running 0x201 0x1000 0x2000000000000000 0x2000 65) = some (0x12, 0x2000000000000000) ∧
    report .hash512 (onPlatform ⟨some 64, [], 0⟩ (running 0x101 0x1000 0x2000000000000000 0x2000 128)) =
      some (0x32, 0x2000000000000000) := by decide +kernel

/-- RejectedByteNeverWritten. -/
theorem witness_RejectedByteNeverWritten :
    (onPlatform ⟨none, [⟨0x2010, 2 ^ 64, .write⟩], 0⟩ (running 1 0x1000 4 0x2000 64)).platform.admits 0x2010 .write = false := by
  decide

/-- OutcomeDependsOnMessageOnly: the two states differ in the byte after the message and in a register. -/
theorem witness_OutcomeDependsOnMessageOnly :
    let s1 := running 1 0x1000 3 0x2000 64
    let s2 := { s1 with mem := [(0x1000, 0x61), (0x1001, 0x62), (0x1002, 0x63)], msgLen := 9 }
    Memory.wf s1.mem ∧ Memory.wf s2.mem ∧ s1.raced = false ∧ s2.raced = false ∧ s1.snap = s2.snap ∧
      s1.platform = s2.platform ∧ s1.mem ≠ s2.mem ∧
      ∀ x, x < s1.snap.msgLen.toNat →
        s1.mem.read (s1.snap.msgBase.toNat + x) = s2.mem.read (s1.snap.msgBase.toNat + x) := by
  refine ⟨running_wf 1 0x1000 3 0x2000 64, by decide, by decide, by decide, by decide, by decide, by decide, ?_⟩
  intro x hx
  have : x < 3 := hx
  interval_cases x <;> decide

/-- SumAnyGrouping: two orders of one list, whose sum wraps. -/
theorem witness_SumAnyGrouping :
    ([0xffffffff, 1, 2] : List (BitVec 32)).Perm [2, 0xffffffff, 1] ∧
      modSum ([0xffffffff, 1, 2] : List (BitVec 32)) = 2 := by decide

/-- RotateAndShift, SigmaFunctionBits, ChooseAndMajority: an amount and the top bit of each width. -/
theorem witness_rotations : 0 < 25 ∧ 25 < 32 ∧ 0 < 61 ∧ 61 < 64 ∧ 31 < 32 ∧ 63 < 64 := by decide

/-- ScheduleRecurrence and RoundsInOrder: the bounds of each clause, and blocks and schedules of the lengths asked for. -/
theorem witness_schedules :
    15 < 16 ∧ 16 ≤ 16 ∧ 63 < 64 ∧ 79 < 80 ∧ (pad .v256 []).length = 64 ∧ (pad .v512 []).length = 128 ∧
      (schedule params256 (pad .v256 [])).length = 64 ∧
      (schedule params512 (pad .v512 [])).length = 80 := by decide +kernel

/-- ZeroPaddingIsLeast: a count that solves the equation and is not the least. -/
theorem witness_ZeroPaddingIsLeast : (8 * 55 + 1 + (7 + 512)) % blockBits .v256 = blockBits .v256 - lengthBits .v256 := by
  decide

/-- PaddedBufferLayout: an index in each part of the padded "abc", and a length the field holds. -/
theorem witness_PaddedBufferLayout :
    2 < abc.length ∧ abc.length < 4 ∧ 4 < abc.length + 1 + zeroPadding .v256 abc.length / 8 ∧
      8 * abc.length < 2 ^ lengthBits .v256 ∧ 7 < lengthBits .v256 / 8 := by decide +kernel

/-- BlocksPartitionBuffer, DigestIsLowercaseHex: the empty message has a block and a first character, and the first and
last characters of the initial values' text are those of 40 R122's table. -/
theorem witness_blocks : pad .v256 [] ∈ blocks .v256 (pad .v256 []) ∧ 0x65 ∈ digestText .v256 [] ∧
    iv256.text.getD (8 * 0 + 0) 0 = 0x36 ∧ iv256.text.getD (8 * 7 + 7) 0 = 0x39 ∧
    iv512.text.getD (16 * 0 + 0) 0 = 0x36 ∧ iv512.text.getD (16 * 7 + 15) 0 = 0x39 := by decide +kernel

/-- HexCharacters: the last digit and the first letter; DigestTextDeterminesState: equal texts. -/
theorem witness_hex : (9 : BitVec 4).toNat < 10 ∧ 10 ≤ (10 : BitVec 4).toNat ∧ hexChar 15 = hexChar 15 ∧
    iv256.text = iv256.text ∧ iv512.text = iv512.text := by decide

/-- ResetEvent and ResetDuringCommand: idle, an illegal word, a wrapping output region, and a region that fits. -/
theorem witness_Reset :
    (idleWith .reset).inputs = .reset :: [] ∧ (idleWith .reset).status.busy = false ∧
      (hashAbc .reset 0x001).inputs = .reset :: [] ∧ (hashAbc .reset 0x001).status.busy = true ∧
      decode (hashAbc .reset 0x402).snap.cmd = .error .reservedOpcode ∧
      decode (hashAbc .reset 0x001).snap.cmd = .ok .hash256 ∧
      2 ^ 64 < (runningWith [.reset] 1 0x1000 3 0xffffffffffffffc1 64).snap.outBase.toNat + need .v256 false ∧
      (hashAbc .reset 0x001).snap.outBase.toNat + need .v256 false ≤ 2 ^ 64 := by decide

theorem witness_ResetDuringCommand_wf : Memory.wf (hashAbc .reset 0x001).mem := running_wf 0x001 0x1000 3 0x2000 200

/-- InvariantKeptByStep, PlatformFixed: a state that meets the invariant, with a command running, and its next state. -/
theorem witness_Invariant : (hashAbc .engine 0x001).Inv ∧ ∃ t, step (hashAbc .engine 0x001) = .next t :=
  ⟨⟨running_wf 0x001 0x1000 3 0x2000 200, by decide, by decide, by decide, by decide, by decide⟩, _, rfl⟩

/-- MemoryChangesConfined: a step of each kind that changes a byte (a reset's bytes are free values, so none is named). -/
theorem witness_MemoryChangesConfined :
    (nextOf (step (idleWith (.dataWrite 0x50 9)))).map (fun t => t.mem.read 0x50) = some 9 ∧
      (idleWith (.dataWrite 0x50 9)).mem.read 0x50 ≠ 9 ∧
      (nextOf (step (hashAbc .engine 0x001))).map (fun t => t.mem.read 0x2000) = some 0x62 ∧
      (hashAbc .engine 0x001).mem.read 0x2000 ≠ 0x62 := by decide +kernel

/-- An idle engine that has completed a command. -/
def completedWith (x : Input) : State :=
  { idleWith x with status := { busy := false, done := true, ovr := false, err := .bufferTooSmall }, errInfo := 0x40 }

/-- DoneRisesOnlyAtCompletion: `done` rises at a completion, falls at an acceptance and at a reset. -/
theorem witness_DoneRisesOnlyAtCompletion :
    (hashAbc .engine 0x001).doneSignal = false ∧
      (nextOf (step (hashAbc .engine 0x001))).map (·.doneSignal) = some true ∧
      (completedWith (.regWrite 0 64 1)).doneSignal = true ∧
      (nextOf (step (completedWith (.regWrite 0 64 1)))).map (·.doneSignal) = some false ∧
      (nextOf (step (completedWith .reset))).map (·.doneSignal) = some false := by decide +kernel

/-- OutcomeKeptUntilNextCommand: an idle state with each kind of move. -/
theorem witness_OutcomeKept :
    (completedWith (.regWrite 0x10 64 1)).status.busy = false ∧ (∃ t, step (completedWith (.regWrite 0x10 64 1)) = .next t) ∧
      (∃ t, step (completedWith (.regWrite 0 64 1)) = .next t) ∧ ∃ t, step (completedWith .reset) = .next t :=
  ⟨rfl, ⟨_, rfl⟩, ⟨_, rfl⟩, _, rfl⟩

/-- RunningCommandIsLatched, MessageStableUnlessRaced: a host write outside both regions while a command runs. -/
theorem witness_RunningCommand :
    (hashAbc (.dataWrite 0x1003 9) 0x001).inputs = .dataWrite 0x1003 9 :: [] ∧
      (hashAbc (.dataWrite 0x1003 9) 0x001).status.busy = true ∧
      decode (hashAbc (.dataWrite 0x1003 9) 0x001).snap.cmd = .ok .hash256 ∧
      (nextOf (step (hashAbc (.dataWrite 0x1003 9) 0x001))).map (fun t => (t.status.busy, t.raced)) =
        some (true, false) := by decide +kernel

/-- EveryCommandEnds: moves of each kind that the port accepts. -/
theorem witness_EveryCommandEnds :
    ∀ x ∈ [Input.regRead 0x08 64, .regWrite 0x10 64 5, .dataRead 7, .dataWrite 8 1], moveAccepted State.reset.platform x := by
  intro x hx
  simp only [List.mem_cons, List.not_mem_nil, or_false] at hx
  rcases hx with rfl | rfl | rfl | rfl
  · exact ⟨.status, by decide⟩
  · exact ⟨.msgBase, by decide⟩
  · trivial
  · trivial

/-- OperandWriteCommutesWithCompletion. -/
theorem witness_OperandWriteCommutes : (running 0x001 0x1000 3 0x2000 64).status.busy = true ∧
    ((0x28 : Word64) = 0x10 ∨ (0x28 : Word64) = 0x18 ∨ (0x28 : Word64) = 0x20 ∨ (0x28 : Word64) = 0x28) := by decide

end Sys2Proof.Tests
end

section
/-! The register port, one rule per access, and what a host or platform move leaves of STATUS and the snapshot. -/

namespace Sys2Proof.Machine

/-! ### The register port -/

/-- A whole aligned read inside the block answers the register's value (10 R15, 45 R210). -/
theorem step_regRead {s : State} {off : Word64} {rest : List Input}
    (hi : s.inputs = .regRead (s.platform.regBase + off) 64 :: rest)
    (hlt : off.toNat < 0x100) (hal : off.toNat % 8 = 0) :
    step s = .next ((s.withInputs rest).withReply (.word ((s.withInputs rest).readReg (regAt off)))) := by
  rw [step_of_cons hi, takeInput, hostRegRead, State.withInputs_platform, regSlot_offset _ hlt hal]

/-- A whole aligned write inside the block is the write of the register there (10 R15, 45 R210). -/
theorem step_regWrite {s : State} {off v : Word64} {rest : List Input}
    (hi : s.inputs = .regWrite (s.platform.regBase + off) 64 v :: rest)
    (hlt : off.toNat < 0x100) (hal : off.toNat % 8 = 0) :
    step s = .next ((s.withInputs rest).writeReg (regAt off) v) := by
  rw [step_of_cons hi, takeInput, hostRegWrite, State.withInputs_platform, regSlot_offset _ hlt hal]

/-- The value at an offset, in the order of 10 R15: CMD and the reserved offsets both read 0. -/
theorem readReg_regAt (s : State) (off : Word64) :
    s.readReg (regAt off) =
      if off = 0x08 then s.status.word
      else if off = 0x10 then s.msgBase
      else if off = 0x18 then s.msgLen
      else if off = 0x20 then s.outBase
      else if off = 0x28 then s.outCap
      else if off = 0x30 then s.errInfo
      else 0 := by
  by_cases h0 : off = 0x00
  · subst h0; rfl
  · rw [regAt, if_neg h0]
    simp only [apply_ite s.readReg]
    rfl

/-- The offsets from 0x38 on are reserved (10 R21). -/
theorem regAt_reserved {off : Word64} (h : 0x38 ≤ off.toNat) : regAt off = .reserved := by
  have hne : ∀ c : Word64, c.toNat < 0x38 → off ≠ c := by rintro c hc rfl; omega
  simp [regAt, hne]

/-- CMD stands at offset 0 alone (10 R15). -/
theorem regAt_eq_cmd {off : Word64} : regAt off = .cmd ↔ off = 0 := by
  constructor
  · intro h
    by_contra hne
    revert h
    simp only [regAt, if_neg hne]
    split_ifs <;> simp
  · rintro rfl; rfl

/-- An access that reaches CMD is a whole one at REG_BASE (10 R15, 20 R35). -/
theorem addr_of_regSlot_cmd {p : Platform} {addr : Word64} {width : Nat} (h : regSlot p addr width = .ok .cmd) :
    addr = p.regBase ∧ width = 64 := by
  obtain ⟨-, hw, -, hr⟩ := regSlot_eq_ok.mp h
  exact ⟨by have := regAt_eq_cmd.mp hr; bv_omega, hw⟩

/-! ### STATUS as a word (10 R17) -/

/-- The STATUS word bit by bit; the number of the error code reads 0 from its fourth bit on. -/
theorem Status.word_getLsbD (f : Status) (k : Nat) :
    f.word.getLsbD k =
      if k = 0 then f.busy else if k = 1 then f.done else if k = 2 then f.ovr else if k = 3 then false
      else f.err.number.getLsbD (k - 4) := by
  rw [Status.word]
  -- The width as the sum that `getLsbD_append` speaks of.
  change BitVec.getLsbD (w := 56 + 4 + 1 + 1 + 1 + 1) _ k = _
  simp only [BitVec.getLsbD_append, BitVec.getLsbD_ofBool, BitVec.getLsbD_zero]
  rcases k with _ | _ | _ | _ | k <;> simp
  exact BitVec.lt_of_getLsbD

/-- From bit 4 on stands the number of the error code (10 R17). -/
theorem Status.word_getLsbD_add_four (f : Status) (j : Nat) : f.word.getLsbD (j + 4) = f.err.number.getLsbD j := by
  simp [Status.word_getLsbD]

/-- ERR is bits 7 to 4 (10 R17). -/
theorem Status.word_extract_err (f : Status) : f.word.extractLsb' 4 4 = f.err.number := by
  refine BitVec.eq_of_getLsbD_eq fun i hi => ?_
  rw [BitVec.getLsbD_extractLsb', Nat.add_comm, Status.word_getLsbD_add_four, decide_eq_true hi, Bool.true_and]

/-- Bits 63 to 8 are reserved (10 R17). -/
theorem Status.word_getLsbD_high (f : Status) {k : Nat} (hk : 8 ≤ k) : f.word.getLsbD k = false := by
  obtain ⟨j, rfl⟩ := Nat.exists_eq_add_of_le' hk
  exact (f.word_getLsbD_add_four (j + 4)).trans (BitVec.getLsbD_of_ge _ _ (by omega))

/-! ### What a host or platform move leaves of STATUS and the snapshot -/

@[simp] theorem hostDataRead_status (addr : Word64) (s : State) : (hostDataRead addr s).status = s.status := by
  obtain ⟨-, -, h⟩ | ⟨-, h⟩ := hostDataRead_cases addr s <;> rw [h] <;> rfl

@[simp] theorem hostDataRead_snap (addr : Word64) (s : State) : (hostDataRead addr s).snap = s.snap := by
  obtain ⟨-, -, h⟩ | ⟨-, h⟩ := hostDataRead_cases addr s <;> rw [h] <;> rfl

@[simp] theorem hostDataWrite_status (addr : Word64) (v : Byte) (s : State) :
    (hostDataWrite addr v s).status = s.status := by
  obtain ⟨-, -, h⟩ | ⟨-, h⟩ := hostDataWrite_cases addr v s <;> rw [h] <;> rfl

@[simp] theorem hostDataWrite_snap (addr : Word64) (v : Byte) (s : State) :
    (hostDataWrite addr v s).snap = s.snap := by
  obtain ⟨-, -, h⟩ | ⟨-, h⟩ := hostDataWrite_cases addr v s <;> rw [h] <;> rfl

/-- A register write changes STATUS or the snapshot only at CMD: OVR while BUSY = 1, an acceptance otherwise. -/
theorem writeReg_status_snap (r : HostReg) (v : Word64) (s : State) :
    ((s.writeReg r v).status = s.status ∧ (s.writeReg r v).snap = s.snap) ∨
    (r = .cmd ∧ s.status.busy = true ∧ s.writeReg r v = s.overrun) ∨
    (r = .cmd ∧ s.status.busy = false ∧ s.writeReg r v = s.accept v) := by
  rcases writeReg_cases r v s with h | h | ⟨-, h⟩ | ⟨-, h⟩ | ⟨-, h⟩ | ⟨-, h⟩ | ⟨-, h⟩
  · exact .inr (.inl h)
  · exact .inr (.inr h)
  all_goals exact .inl (by rw [h]; exact ⟨rfl, rfl⟩)

/-- While a command runs, no register write reaches its snapshot, BUSY or DONE (10 R16, 45 R211). -/
theorem writeReg_of_busy {s : State} (hb : s.status.busy = true) (r : HostReg) (v : Word64) :
    (s.writeReg r v).snap = s.snap ∧ (s.writeReg r v).status.busy = true ∧
      (s.writeReg r v).status.done = s.status.done := by
  rcases writeReg_status_snap r v s with ⟨hst, hsn⟩ | ⟨-, -, h⟩ | ⟨-, hidle, -⟩
  · rw [hst, hsn]; exact ⟨rfl, hb, rfl⟩
  · rw [h]; exact ⟨rfl, hb, rfl⟩
  · rw [hb] at hidle; cases hidle

/-! ### Completion -/

/-- A completed HASH command leaves BUSY = 0 and DONE = 1 (45 R214). -/
theorem runHash_busy_done (v : Variant) (term : Bool) (s : State) :
    (runHash v term s).status.busy = false ∧ (runHash v term s).status.done = true := by
  rcases runHash_cases v term s with ⟨-, h⟩ | ⟨-, e, -, h⟩ | ⟨-, -, h⟩ <;> rw [h] <;> exact ⟨rfl, rfl⟩

/-- A running command's turn is its completion: BUSY falls, DONE rises, and what `KeepsRegisters` names stays. -/
theorem engineTurn_of_busy {s : State} (hb : s.status.busy = true) :
    ∃ t, engineTurn s = .next t ∧ t.status.busy = false ∧ t.status.done = true ∧ KeepsRegisters s t := by
  rcases engineTurn_cases s with ⟨hidle, -⟩ | ⟨-, i, -, h⟩ | ⟨-, e, -, h⟩
  · rw [hb] at hidle; cases hidle
  · obtain ⟨hbusy, hdone⟩ := runHash_busy_done i.variant i.term s
    exact ⟨_, h, hbusy, hdone, runHash_keeps i.variant i.term s⟩
  · exact ⟨_, h, rfl, rfl, by constructor <;> rfl⟩

/-- An engine's turn leaves the state alone or completes the running command. -/
theorem engineTurn_eq_next {s t : State} (h : engineTurn s = .next t) :
    (s.status.busy = false ∧ t = s) ∨
    (s.status.busy = true ∧ t.status.busy = false ∧ t.status.done = true ∧ KeepsRegisters s t) := by
  cases hb : s.status.busy with
  | false =>
    rw [engineTurn, hb] at h
    cases h
    exact .inl ⟨rfl, rfl⟩
  | true =>
    obtain ⟨t', ht', hdone⟩ := engineTurn_of_busy hb
    rw [h] at ht'
    cases ht'
    exact .inr ⟨rfl, hdone⟩

/-! ### The host's side of the state: a completion neither reads nor writes it -/

/-- The operand registers and the queue replaced: the engine works from the snapshot (45 R212). -/
def State.withHostSide (msgBase msgLen outBase outCap : Word64) (inputs : List Input) (s : State) : State :=
  { s with msgBase := msgBase, msgLen := msgLen, outBase := outBase, outCap := outCap, inputs := inputs }

theorem runHash_withHostSide (v : Variant) (term : Bool) (s : State) (m n o c : Word64) (xs : List Input) :
    runHash v term (s.withHostSide m n o c xs) = (runHash v term s).withHostSide m n o c xs := by
  have hraced : (s.withHostSide m n o c xs).raced = s.raced := rfl
  have herr : firstError (s.withHostSide m n o c xs).platform v term (s.withHostSide m n o c xs).snap =
      firstError s.platform v term s.snap := rfl
  rw [runHash, runHash, State.execute, State.execute, hraced, herr]
  cases s.raced
  · cases firstError s.platform v term s.snap <;> rfl
  · rfl

theorem engineTurn_withHostSide {s t : State} (h : engineTurn s = .next t) (m n o c : Word64) (xs : List Input) :
    engineTurn (s.withHostSide m n o c xs) = .next (t.withHostSide m n o c xs) := by
  have hbusy : (s.withHostSide m n o c xs).status.busy = s.status.busy := rfl
  have hcmd : (s.withHostSide m n o c xs).snap.cmd = s.snap.cmd := rfl
  rw [engineTurn, hbusy, hcmd]
  rw [engineTurn] at h
  cases hb : s.status.busy with
  | false => rw [hb] at h; cases h; rfl
  | true =>
    cases hd : decode s.snap.cmd with
    | ok i =>
      simp only [hb, hd, if_true, exec_eq] at h ⊢
      cases h
      rw [runHash_withHostSide]
    | error e => simp only [hb, hd, if_true] at h ⊢; cases h; rfl

/-- The four operand registers (10 R19). -/
def HostReg.isOperand (r : HostReg) : Prop := r = .msgBase ∨ r = .msgLen ∨ r = .outBase ∨ r = .outCap

/-- An operand register write changes the host's side alone, in the same way whatever the rest of the state is. -/
theorem writeReg_withHostSide {r : HostReg} (hr : r.isOperand) (v m n o c : Word64) :
    ∃ m' n' o' c', ∀ (s : State) (xs : List Input),
      (s.withHostSide m n o c xs).writeReg r v = s.withHostSide m' n' o' c' xs := by
  obtain rfl | rfl | rfl | rfl := hr
  · exact ⟨v, n, o, c, fun _ _ => rfl⟩
  · exact ⟨m, v, o, c, fun _ _ => rfl⟩
  · exact ⟨m, n, v, c, fun _ _ => rfl⟩
  · exact ⟨m, n, o, v, fun _ _ => rfl⟩

end Sys2Proof.Machine
end

section
/-! The machine's invariant: what each operation needs to keep it, then each mover, then a step. -/

namespace Sys2Proof.Machine

/-- The invariant speaks of memory, STATUS, ERR_INFO and the race marks alone. -/
theorem State.Inv.of_agree {s t : State} (h : s.Inv) (hmem : t.mem.wf) (hstatus : t.status = s.status)
    (hinfo : t.errInfo = s.errInfo) (hrec : t.recorded = s.recorded) (hraced : t.raced = s.raced) : t.Inv where
  memory := hmem
  exclusive := by rw [hstatus]; exact h.exclusive
  running := by rw [hstatus, hinfo]; exact h.running
  untouched := by rw [hstatus, hinfo]; exact h.untouched
  marked := by rw [hstatus, hrec, hraced]; exact h.marked
  noDetail := by rw [hstatus, hinfo, hrec]; exact h.noDetail

theorem State.Inv.withInputs {s : State} (h : s.Inv) (xs : List Input) : (s.withInputs xs).Inv :=
  h.of_agree h.memory rfl rfl rfl rfl

theorem State.Inv.withReply {s : State} (h : s.Inv) (r : Reply) : (s.withReply r).Inv :=
  h.of_agree h.memory rfl rfl rfl rfl

theorem State.Inv.countDraw {s : State} (h : s.Inv) : s.countDraw.Inv :=
  h.of_agree h.memory rfl rfl rfl rfl

theorem State.Inv.withMem {s : State} (h : s.Inv) {m : Memory} (hm : m.wf) : (s.withMem m).Inv :=
  h.of_agree hm rfl rfl rfl rfl

/-- Acceptance starts from clear flags, so it asks for canonical memory alone (45 R212). -/
theorem inv_accept {s : State} (hm : s.mem.wf) (v : Word64) : (s.accept v).Inv where
  memory := hm
  exclusive h := by cases h.2
  running _ := ⟨rfl, rfl⟩
  untouched h := by cases h
  marked h := by cases h
  noDetail _ _ := rfl

/-- A dropped CMD write sets OVR of a running command, and the invariant bounds OVR only where none runs. -/
theorem State.Inv.overrun {s : State} (h : s.Inv) (hb : s.status.busy = true) : s.overrun.Inv where
  memory := h.memory
  exclusive := h.exclusive
  running := h.running
  untouched hidle := by rw [State.overrun_status, hb] at hidle; cases hidle
  marked := h.marked
  noDetail := h.noDetail

theorem State.Inv.recordRace {s : State} (h : s.Inv) (hb : s.status.busy = true) : s.recordRace.Inv where
  memory := h.memory
  exclusive := h.exclusive
  running := h.running
  untouched := h.untouched
  marked _ := ⟨hb, rfl⟩
  noDetail hrec := by cases hrec

/-- A completion keeps the invariant when its outcome is an error, or a detail of 0, or comes after a HostRace. -/
theorem inv_complete {s : State} (hm : s.mem.wf) {code : ErrCode} {info : Word64}
    (hinfo : s.recorded = none → code = .none → info = 0) : (s.complete code info).Inv where
  memory := hm
  exclusive h := by cases h.1
  running h := by cases h
  untouched _ h := by cases h
  marked h := by cases h
  noDetail := hinfo

/-- Raising an error keeps the invariant, since it reports a code other than NONE. -/
theorem inv_raiseError {s : State} (hm : s.mem.wf) {e : ErrorReport} (he : e.code ≠ .none) : (s.raiseError e).Inv :=
  inv_complete hm fun _ h => absurd h he

/-- A HASH command's completion: free after a recorded race, an error of steps 2 to 8, or NONE with ERR_INFO 0. -/
theorem State.Inv.runHash {s : State} (h : s.Inv) (v : Variant) (term : Bool) : (runHash v term s).Inv := by
  rcases runHash_cases v term s with ⟨hraced, heq⟩ | ⟨-, e, herr, heq⟩ | ⟨-, hpass, heq⟩ <;> rw [heq]
  · obtain ⟨-, hrec⟩ := h.marked hraced
    exact inv_complete (Memory.forget_wf h.memory _ _ _) fun hnone => by
      rw [State.withMem_recorded, hrec] at hnone; cases hnone
  · exact inv_raiseError h.memory (firstError_code herr).1
  · have hm : ((s.hashMessage v).writeOutput term).mem.wf := by
      rw [mem_writeOutput]
      exact Memory.writeBytes_wf h.memory (by rw [length_output]; exact hpass.outFits)
    exact inv_complete hm fun _ _ => rfl

theorem State.Inv.engineTurn {s t : State} (h : s.Inv) (ht : engineTurn s = .next t) : t.Inv := by
  rcases engineTurn_cases s with ⟨-, heq⟩ | ⟨-, i, -, heq⟩ | ⟨-, e, -, heq⟩ <;> rw [heq] at ht <;> cases ht
  · exact h
  · exact h.runHash i.variant i.term
  · exact inv_raiseError h.memory ErrCode.noConfusion

theorem State.Inv.writeReg {s : State} (h : s.Inv) (r : HostReg) (v : Word64) : (s.writeReg r v).Inv := by
  rcases writeReg_cases r v s with ⟨-, hb, heq⟩ | ⟨-, -, heq⟩ | ⟨-, heq⟩ | ⟨-, heq⟩ | ⟨-, heq⟩ | ⟨-, heq⟩ | ⟨-, heq⟩ <;>
    rw [heq]
  · exact h.overrun hb
  · exact inv_accept h.memory v
  all_goals exact h.of_agree h.memory rfl rfl rfl rfl

theorem State.Inv.hostDataRead {s : State} (h : s.Inv) (addr : Word64) : (hostDataRead addr s).Inv := by
  rcases hostDataRead_cases addr s with ⟨-, -, heq⟩ | ⟨-, heq⟩ <;> rw [heq]
  · exact h.countDraw.withReply _
  · exact h.withReply _

theorem State.Inv.hostDataWrite {s : State} (h : s.Inv) (addr : Word64) (v : Byte) : (hostDataWrite addr v s).Inv := by
  have hw : (s.withMem (s.mem.write addr.toNat v)).Inv := h.withMem (Memory.write_wf h.memory addr.isLt v)
  rcases hostDataWrite_cases addr v s with ⟨hb, -, heq⟩ | ⟨-, heq⟩ <;> rw [heq]
  · exact hw.recordRace hb
  · exact hw

/-- A reset clears the flags and the mark, so it asks for canonical memory alone (70 R270, R271). -/
theorem inv_resetEngine {s : State} (hm : s.mem.wf) : (resetEngine s).Inv := by
  obtain ⟨hstatus, hinfo, -, -, -, -, -, -, hraced, -⟩ := resetEngine_rest s
  have hmem : (resetEngine s).mem.wf := by
    rw [resetEngine_mem]
    split
    · exact Memory.forget_wf hm _ _ _
    · exact hm
  exact {
    memory := hmem
    exclusive := by simp [hstatus, Status.reset]
    running := by simp [hinfo, hstatus, Status.reset]
    untouched := by simp [hinfo, hstatus, Status.reset]
    marked := by simp [hraced]
    noDetail := by simp [hinfo] }

/-- Every step keeps the invariant, mover by mover. -/
theorem State.Inv.step {s t : State} (h : s.Inv) (ht : step s = .next t) : t.Inv := by
  rcases step_cases ht with ⟨-, he⟩ | ⟨x, rest, -, hx⟩
  · exact h.engineTurn he
  have hq : (s.withInputs rest).Inv := h.withInputs rest
  rcases hx with ⟨-, he⟩ | ⟨_, _, r, -, -, rfl⟩ | ⟨_, _, v, r, -, -, rfl⟩ | ⟨addr, -, rfl⟩ | ⟨addr, v, -, rfl⟩ | ⟨-, rfl⟩
  · exact hq.engineTurn he
  · exact hq.withReply _
  · exact hq.writeReg r v
  · exact hq.hostDataRead addr
  · exact hq.hostDataWrite addr v
  · exact inv_resetEngine hq.memory

/-- The state right after reset meets the invariant (70 R270). -/
theorem inv_reset : State.reset.Inv := by constructor <;> decide

end Sys2Proof.Machine
end

section
/-! What a step can do to DONE, and the settled statements of the state's family. -/

namespace Sys2Proof.Machine

/-- An engine's turn leaves DONE alone or completes the running command. -/
theorem engineTurn_done_cases {s t : State} (h : engineTurn s = .next t) :
    t.status.done = s.status.done ∨ (s.status.busy = true ∧ t.status.busy = false ∧ t.status.done = true) := by
  rcases engineTurn_eq_next h with ⟨-, rfl⟩ | ⟨hb, hidle, hdone, -⟩
  · exact .inl rfl
  · exact .inr ⟨hb, hidle, hdone⟩

/-- What a step does to DONE: nothing; or it completes a command; or it clears DONE by a reset or an acceptance. -/
theorem step_done_cases {s t : State} (h : step s = .next t) :
    t.status.done = s.status.done ∨
    (s.status.busy = true ∧ s.engineNext = true ∧ t.status.busy = false ∧ t.status.done = true) ∨
    ((∃ rest, s.inputs = .reset :: rest) ∧ t.status.done = false) ∨
    ((∃ v rest, s.inputs = .regWrite s.platform.regBase 64 v :: rest ∧ t.snap.cmd = v) ∧
      s.status.busy = false ∧ t.status.busy = true ∧ t.status.done = false) := by
  rcases step_cases h with ⟨hi, he⟩ | ⟨x, rest, hi, hx⟩
  · have hnext : s.engineNext = true := by simp [State.engineNext, hi]
    exact (engineTurn_done_cases he).imp_right fun ⟨hb, hdone⟩ => .inl ⟨hb, hnext, hdone⟩
  rcases hx with ⟨rfl, he⟩ | ⟨_, _, _, -, -, rfl⟩ | ⟨addr, width, v, r, rfl, hr, rfl⟩ | ⟨addr, -, rfl⟩ |
    ⟨addr, v, -, rfl⟩ | ⟨rfl, rfl⟩
  · have hnext : s.engineNext = true := by simp [State.engineNext, hi]
    exact (engineTurn_done_cases he).imp_right fun ⟨hb, hdone⟩ => .inl ⟨hb, hnext, hdone⟩
  · exact .inl rfl
  · rcases writeReg_status_snap r v (s.withInputs rest) with ⟨hst, -⟩ | ⟨-, -, heq⟩ | ⟨rfl, hb, heq⟩
    · exact .inl (by rw [hst]; rfl)
    · exact .inl (by rw [heq]; rfl)
    · obtain ⟨rfl, rfl⟩ := addr_of_regSlot_cmd hr
      rw [heq]
      exact .inr (.inr (.inr ⟨⟨v, rest, hi, rfl⟩, hb, rfl, rfl⟩))
  · exact .inl (by simp)
  · exact .inl (by simp)
  · exact .inr (.inr (.inl ⟨⟨rest, hi⟩, by rw [(resetEngine_rest _).1]; rfl⟩))

end Sys2Proof.Machine

open Sys2Proof Sys2Proof.Machine

/-- Settles O52: each mover keeps the invariant, and a step is one mover's move. -/
theorem invariantKeptByStep : Obligations.InvariantKeptByStep := fun _ _ h ht => h.step ht

/-- Settles O13: the offsets from 0x38 on reach the reserved register, and a STATUS write is ignored. -/
theorem reservedSpaceReadsZero : Obligations.ReservedSpaceReadsZero := by
  refine ⟨fun s off v rest hge hlt hal => ⟨fun hi => ?_, fun hi => ?_⟩, fun s v rest hi => ?_, fun f => ?_⟩
  · rw [step_regRead hi hlt hal, regAt_reserved hge]; rfl
  · rw [step_regWrite hi hlt hal, regAt_reserved hge]; rfl
  · exact step_regWrite hi (by decide) (by decide)
  · exact ⟨f.word_getLsbD 3, fun _ hk => f.word_getLsbD_high hk⟩

/-- Settles O54, from the four things a step can do to DONE. -/
theorem doneRisesOnlyAtCompletion : Obligations.DoneRisesOnlyAtCompletion := by
  intro s t h
  rw [State.doneSignal, State.doneSignal]
  rcases step_done_cases h with hsame | ⟨hb, hnext, hidle, hdone⟩ | ⟨hreset, hdone⟩ | ⟨hcmd, hb, hbusy, hdone⟩
  · rw [hsame]
    exact ⟨fun h0 h1 => absurd h1 (by simp [h0]), fun h1 h0 => absurd h1 (by simp [h0])⟩
  · exact ⟨fun _ _ => ⟨hb, hnext, hidle⟩, fun _ h0 => absurd h0 (by simp [hdone])⟩
  · exact ⟨fun _ h1 => absurd h1 (by simp [hdone]), fun _ _ => .inl hreset⟩
  · obtain ⟨v, rest, hi, hv⟩ := hcmd
    exact ⟨fun _ h1 => absurd h1 (by simp [hdone]), fun _ _ => .inr ⟨hb, hbusy, v, rest, hi, hv⟩⟩

/-- Settles O56, move by move of the hosts. -/
theorem runningCommandIsLatched : Obligations.RunningCommandIsLatched := by
  intro s t x rest hi hengine hreset hb h
  rcases step_cases h with ⟨hnil, -⟩ | ⟨y, rest', hi', hy⟩
  · rw [hi] at hnil; cases hnil
  rw [hi] at hi'
  cases hi'
  rcases hy with ⟨hx, -⟩ | ⟨_, _, _, -, -, rfl⟩ | ⟨_, _, v, r, -, -, rfl⟩ | ⟨addr, -, rfl⟩ | ⟨addr, v, -, rfl⟩ |
    ⟨hx, -⟩
  · exact absurd hx hengine
  · exact ⟨rfl, hb, rfl⟩
  · exact writeReg_of_busy (s := s.withInputs rest) hb r v
  · simp [hb]
  · simp [hb]
  · exact absurd hx hreset

/-- Settles O60: both orders complete the command and leave the host's side as the write leaves it. -/
theorem operandWriteCommutesWithCompletion : Obligations.OperandWriteCommutesWithCompletion := by
  intro s off v hb hoff
  have hreg : (regAt off).isOperand ∧ off.toNat < 0x100 ∧ off.toNat % 8 = 0 := by
    obtain rfl | rfl | rfl | rfl := hoff
    · exact ⟨.inl rfl, by decide, by decide⟩
    · exact ⟨.inr (.inl rfl), by decide, by decide⟩
    · exact ⟨.inr (.inr (.inl rfl)), by decide, by decide⟩
    · exact ⟨.inr (.inr (.inr rfl)), by decide, by decide⟩
  obtain ⟨hop, hlt, hal⟩ := hreg
  obtain ⟨m, n, o, c, hwrite⟩ := writeReg_withHostSide hop v s.msgBase s.msgLen s.outBase s.outCap
  obtain ⟨u, hturn, hidle, -, hkeeps⟩ := engineTurn_of_busy hb
  refine ⟨u.withHostSide m n o c [], ?_, ?_, hidle⟩
  · have hfirst : step (s.withInputs [.regWrite (s.platform.regBase + off) 64 v, .engine]) =
        .next (s.withHostSide m n o c [.engine]) := by
      rw [← hwrite]; exact step_regWrite rfl hlt hal
    have hsecond : step (s.withHostSide m n o c [.engine]) = .next (u.withHostSide m n o c []) := by
      rw [step_of_cons rfl]; exact engineTurn_withHostSide hturn m n o c []
    rw [runSteps_succ hfirst, runSteps_succ hsecond, runSteps_zero]
  · rw [← hkeeps.platform]
    have hfirst : step (s.withInputs [.engine, .regWrite (u.platform.regBase + off) 64 v]) =
        .next (u.withHostSide s.msgBase s.msgLen s.outBase s.outCap [.regWrite (u.platform.regBase + off) 64 v]) := by
      rw [step_of_cons rfl]; exact engineTurn_withHostSide hturn s.msgBase s.msgLen s.outBase s.outCap _
    have hsecond : step (u.withHostSide s.msgBase s.msgLen s.outBase s.outCap
        [.regWrite (u.platform.regBase + off) 64 v]) = .next (u.withHostSide m n o c []) := by
      rw [← hwrite]; exact step_regWrite rfl hlt hal
    rw [runSteps_succ hfirst, runSteps_succ hsecond, runSteps_zero]

/-- Settles O11: a whole aligned read answers the register at its offset. -/
theorem registerReadReturns : Obligations.RegisterReadReturns := by
  intro s off rest hi hlt hal
  rw [step_regRead hi hlt hal, readReg_regAt]; rfl

/-- Settles O12: each of the four offsets reaches its operand register, whatever BUSY is. -/
theorem operandWriteChangesItsRegister : Obligations.OperandWriteChangesItsRegister := by
  refine fun s v rest => ⟨fun hi => ?_, fun hi => ?_, fun hi => ?_, fun hi => ?_⟩ <;>
    exact step_regWrite hi (by decide) (by decide)

/-- Settles O14: a write that reaches STATUS or ERR_INFO is dropped. -/
theorem readOnlyRegistersIgnoreWrites : Obligations.ReadOnlyRegistersIgnoreWrites := by
  rintro s off v rest (rfl | rfl) hi <;> exact step_regWrite hi (by decide) (by decide)

/-- Settles O15, from the STATUS word's fields. -/
theorem statusWordLayout : Obligations.StatusWordLayout := by
  intro s
  have hbit := s.status.word_getLsbD
  refine ⟨hbit 0, hbit 1, hbit 2, (hbit 1).symm, ?_⟩
  rw [Status.word_extract_err]
  cases s.status.err <;> rfl

/-- Settles O51, clause by clause on the reset state. -/
theorem invariantAtReset : Obligations.InvariantAtReset := inv_reset

end

section
/-! The data port, the bytes a command can write, the digest's characters, and the settled statements of the memory's
family. -/

namespace Sys2Proof.Machine

/-! ### The register port refuses partial accesses (20 R35) -/

/-- Inside the block, an access of another width or at an unaligned offset is partial. -/
theorem regSlot_partial {p : Platform} {addr : Word64} {width : Nat} (hin : (addr - p.regBase).toNat < 0x100)
    (hpart : width ≠ 64 ∨ (addr - p.regBase).toNat % 8 ≠ 0) :
    regSlot p addr width = .error .partialRegisterAccess := by
  rw [regSlot, if_neg (Nat.not_le.mpr hin), if_neg (fun ⟨hw, hal⟩ => hpart.elim (· hw) (· hal))]

/-! ### One data access (70 R274, R275) -/

/-- The output region of an illegal word is empty, and a legal word's has its `need` bytes alone. -/
theorem Snapshot.inOutput_eq_false {S : Snapshot} {a : Nat}
    (h : (∃ e, decode S.cmd = .error e) ∨
      ∃ i, decode S.cmd = .ok i ∧ ¬(S.outBase.toNat ≤ a ∧ a < S.outBase.toNat + need i.variant i.term)) :
    S.inOutput a = false := by
  rw [Bool.eq_false_iff, Ne, Snapshot.inOutput_iff]
  rintro ⟨j, hj, hin⟩
  obtain ⟨e, he⟩ | ⟨i, hi, hout⟩ := h
  · rw [he] at hj; cases hj
  · rw [hi] at hj; cases hj; exact hout hin

/-- The message region of an illegal word is empty, and a legal word's has the message's bytes alone. -/
theorem Snapshot.inMessage_eq_false {S : Snapshot} {a : Nat}
    (h : (∃ e, decode S.cmd = .error e) ∨ ¬(S.msgBase.toNat ≤ a ∧ a < S.msgBase.toNat + S.msgLen.toNat)) :
    S.inMessage a = false := by
  rw [Bool.eq_false_iff, Ne, Snapshot.inMessage_iff]
  rintro ⟨⟨j, hj⟩, hin⟩
  obtain ⟨e, he⟩ | hout := h
  · rw [he] at hj; cases hj
  · exact hout hin

/-- A read of an output byte of the running command is a draw. -/
theorem hostDataRead_running {addr : Word64} {s : State} (hb : s.status.busy = true)
    (ho : s.snap.inOutput addr.toNat = true) :
    hostDataRead addr s = s.countDraw.withReply (.byte (Config.freeByte s.draws addr.toNat)) := by
  rw [hostDataRead, if_pos (by rw [hb, ho]; rfl)]

/-- Every other read answers the byte in memory. -/
theorem hostDataRead_quiet {addr : Word64} {s : State}
    (h : s.status.busy = false ∨ s.snap.inOutput addr.toNat = false) :
    hostDataRead addr s = s.withReply (.byte (s.mem.read addr.toNat)) := by
  rw [hostDataRead, if_neg (by obtain h | h := h <;> simp [h])]

/-- A write into a region of the running command lands and is marked. -/
theorem hostDataWrite_racing {addr : Word64} {v : Byte} {s : State} (hb : s.status.busy = true)
    (hr : s.snap.inMessage addr.toNat = true ∨ s.snap.inOutput addr.toNat = true) :
    hostDataWrite addr v s = (s.withMem (s.mem.write addr.toNat v)).recordRace := by
  rw [hostDataWrite, if_pos (by obtain h | h := hr <;> simp [hb, h])]

/-- Every other write lands unmarked. -/
theorem hostDataWrite_quiet {addr : Word64} {v : Byte} {s : State}
    (h : s.status.busy = false ∨ (s.snap.inMessage addr.toNat = false ∧ s.snap.inOutput addr.toNat = false)) :
    hostDataWrite addr v s = s.withMem (s.mem.write addr.toNat v) := by
  rw [hostDataWrite, if_neg]
  obtain hb | ⟨hm, ho⟩ := h
  · simp [hb]
  · simp [hm, ho]

@[simp] theorem hostDataRead_mem (addr : Word64) (s : State) : (hostDataRead addr s).mem = s.mem := by
  obtain ⟨-, -, h⟩ | ⟨-, h⟩ := hostDataRead_cases addr s <;> rw [h] <;> rfl

@[simp] theorem hostDataWrite_mem (addr : Word64) (v : Byte) (s : State) :
    (hostDataWrite addr v s).mem = s.mem.write addr.toNat v := by
  obtain ⟨-, -, h⟩ | ⟨-, h⟩ := hostDataWrite_cases addr v s <;> rw [h] <;> rfl

@[simp] theorem writeReg_mem (r : HostReg) (v : Word64) (s : State) : (s.writeReg r v).mem = s.mem := by
  rcases writeReg_cases r v s with ⟨-, -, h⟩ | ⟨-, -, h⟩ | ⟨-, h⟩ | ⟨-, h⟩ | ⟨-, h⟩ | ⟨-, h⟩ | ⟨-, h⟩ <;> rw [h] <;> rfl

/-! ### The bytes that a completion or a reset can change (20 R30, 45 R220, 70 R271) -/

/-- A HASH command leaves every byte outside its `need` output bytes as it was. -/
theorem runHash_read_other {v : Variant} {term : Bool} {s : State} {a : Nat}
    (h : a < s.snap.outBase.toNat ∨ s.snap.outBase.toNat + need v term ≤ a) :
    (runHash v term s).mem.read a = s.mem.read a := by
  rcases runHash_cases v term s with ⟨-, heq⟩ | ⟨-, e, -, heq⟩ | ⟨-, -, heq⟩ <;> rw [heq]
  · exact Memory.read_forget_other _ h
  · rfl
  · rw [State.complete_mem, mem_writeOutput]
    exact Memory.read_writeBytes_other _ (by rwa [length_output])

/-- A byte that the engine's turn changes lies in the output region of the running command. -/
theorem inOutput_of_engineTurn_changes {s t : State} {a : Nat} (h : engineTurn s = .next t)
    (hne : t.mem.read a ≠ s.mem.read a) : s.status.busy = true ∧ s.snap.inOutput a = true := by
  rcases engineTurn_cases s with ⟨-, heq⟩ | ⟨hb, i, hd, heq⟩ | ⟨-, e, -, heq⟩ <;> rw [heq] at h <;> cases h
  · exact absurd rfl hne
  · refine ⟨hb, Snapshot.inOutput_iff.mpr ⟨i, hd, ?_⟩⟩
    by_contra hout
    exact hne (runHash_read_other (by omega))
  · exact absurd rfl hne

/-- A byte that a reset changes lies in the output region of the command it abandons. -/
theorem inOutput_of_reset_changes {s : State} {a : Nat} (hne : (resetEngine s).mem.read a ≠ s.mem.read a) :
    s.status.busy = true ∧ s.snap.inOutput a = true := by
  rw [resetEngine_mem] at hne
  split at hne
  · rename_i hb
    refine ⟨hb, inRegion_iff.mpr ?_⟩
    have hsize := s.snap.abandonedSize_le
    by_contra hout
    exact hne (Memory.read_forget_other _ (by omega))
  · exact absurd rfl hne

/-- What changes a byte: a host's write of it, or the engine's turn or a reset in a running command's output region. -/
theorem step_changes_byte {s t : State} {a : Nat} (h : step s = .next t) (hne : t.mem.read a ≠ s.mem.read a) :
    (∃ addr v rest, s.inputs = .dataWrite addr v :: rest ∧ addr.toNat = a) ∨
    ((s.engineNext = true ∨ ∃ rest, s.inputs = .reset :: rest) ∧ s.status.busy = true ∧ s.snap.inOutput a = true) := by
  rcases step_cases h with ⟨hi, he⟩ | ⟨x, rest, hi, hx⟩
  · exact .inr ⟨.inl (by simp [State.engineNext, hi]), inOutput_of_engineTurn_changes he hne⟩
  rcases hx with ⟨rfl, he⟩ | ⟨_, _, _, -, -, rfl⟩ | ⟨_, _, v, r, -, -, rfl⟩ | ⟨addr, -, rfl⟩ | ⟨addr, v, rfl, rfl⟩ |
    ⟨rfl, rfl⟩
  · exact .inr ⟨.inl (by simp [State.engineNext, hi]), inOutput_of_engineTurn_changes (s := s.withInputs rest) he hne⟩
  · exact absurd rfl hne
  · exact absurd (by simp) hne
  · exact absurd (by simp) hne
  · refine .inl ⟨addr, v, rest, hi, ?_⟩
    by_contra ha
    exact hne (by rw [hostDataWrite_mem]; exact Memory.read_write_other _ (Ne.symm ha) v)
  · exact .inr ⟨.inr ⟨rest, hi⟩, inOutput_of_reset_changes (s := s.withInputs rest) hne⟩

/-- A step that leaves a running command running is a host's move. -/
theorem host_move_of_stays_busy {s t : State} (h : step s = .next t) (hb : s.status.busy = true)
    (hb' : t.status.busy = true) : ∃ x rest, s.inputs = x :: rest ∧ x ≠ .engine ∧ x ≠ .reset := by
  have hturn : ∀ {u : State}, u.status.busy = true → engineTurn u ≠ .next t := fun hu he => by
    obtain ⟨t', ht', hidle, -⟩ := engineTurn_of_busy hu
    rw [he] at ht'; cases ht'
    rw [hb'] at hidle; cases hidle
  cases hi : s.inputs with
  | nil => rw [step_of_nil hi] at h; exact absurd h (hturn hb)
  | cons x rest =>
    rw [step_of_cons hi] at h
    refine ⟨x, rest, rfl, ?_, ?_⟩ <;> rintro rfl
    · exact hturn (u := s.withInputs rest) hb h
    · cases h
      rw [(resetEngine_rest _).1] at hb'; cases hb'

/-- The message is the same when the snapshot and the bytes of its message region are (41 R130). -/
theorem message_congr {s t : State} (hsnap : t.snap = s.snap)
    (hbytes : ∀ k, k < s.snap.msgLen.toNat →
      t.mem.read (s.snap.msgBase.toNat + k) = s.mem.read (s.snap.msgBase.toNat + k)) :
    t.message = s.message := by
  rw [State.message, State.message, hsnap]
  exact List.map_congr_left fun k hk => hbytes k (List.mem_range.mp hk)

/-! ### The digest's characters (44 R191 to R193) -/

/-- Character `j` of a word is its nibble `j` from the top (44 R192). -/
theorem getD_render {w : Nat} (x : BitVec w) {j : Nat} (hj : j < w / 4) :
    (render x).getD j 0 = hexChar (x.extractLsb' (w - 4 - 4 * j) 4) := by
  simp [render, hj]

/-- The words of a chaining state, in the order they are rendered in. -/
def Chain.words {w : Nat} (c : Chain w) : List (BitVec w) := [c.h0, c.h1, c.h2, c.h3, c.h4, c.h5, c.h6, c.h7]

theorem Chain.text_eq_flatMap {w : Nat} (c : Chain w) : c.text = c.words.flatMap render := by
  simp [Chain.text, Chain.words]

/-- Rendered words stand one after the other, `w/4` characters each. -/
theorem getD_flatMap_render {w : Nat} (ws : List (BitVec w)) {m j : Nat} (hm : m < ws.length) (hj : j < w / 4) :
    (ws.flatMap render).getD (w / 4 * m + j) 0 = (render (ws.getD m 0)).getD j 0 := by
  induction ws generalizing m with
  | nil => cases hm
  | cons x xs ih =>
    rw [List.flatMap_cons]
    cases m with
    | zero => rw [List.getD_append _ _ _ _ (by simpa using hj)]; simp
    | succ m =>
      have hpos : w / 4 * (m + 1) + j = w / 4 + (w / 4 * m + j) := by rw [Nat.mul_succ]; omega
      rw [List.getD_append_right _ _ _ _ (by rw [length_render]; omega), length_render, hpos, Nat.add_sub_cancel_left,
        ih (Nat.lt_of_succ_lt_succ hm), List.getD_cons_succ]

/-- Character `(w/4) * m + j` of a chaining state's text is nibble `j` of word `m` (44 R193). -/
theorem Chain.getD_text {w : Nat} (c : Chain w) {m j : Nat} (hm : m < 8) (hj : j < w / 4) :
    c.text.getD (w / 4 * m + j) 0 = hexChar ((c.words.getD m 0).extractLsb' (w - 4 - 4 * j) 4) := by
  rw [c.text_eq_flatMap, getD_flatMap_render c.words hm hj, getD_render _ hj]

/-- A text holds only characters of nibbles. -/
theorem Chain.mem_text {w : Nat} {c : Chain w} {b : Byte} (h : b ∈ c.text) : ∃ d, b = hexChar d := by
  rw [c.text_eq_flatMap, List.mem_flatMap] at h
  obtain ⟨x, -, hb⟩ := h
  obtain ⟨m, -, rfl⟩ := List.mem_map.mp hb
  exact ⟨_, rfl⟩

theorem mem_digestText {v : Variant} {msg : List Byte} {b : Byte} (h : b ∈ digestText v msg) : ∃ d, b = hexChar d := by
  cases v <;> exact Chain.mem_text h

/-- A nibble's character is an ASCII digit or a lowercase letter from a to f (44 R191). -/
theorem hexChar_range : ∀ d : BitVec 4, (0x30 ≤ (hexChar d).toNat ∧ (hexChar d).toNat ≤ 0x39) ∨
    (0x61 ≤ (hexChar d).toNat ∧ (hexChar d).toNat ≤ 0x66) := by decide

end Sys2Proof.Machine

open Sys2Proof Sys2Proof.Machine

/-- Settles O17: the reply is a draw exactly where the running command may be writing. -/
theorem dataReadReturns : Obligations.DataReadReturns := by
  intro s addr rest hi
  have hstep : step s = .next (hostDataRead addr (s.withInputs rest)) := step_of_cons hi
  rw [hstep]
  refine ⟨fun i hb hd hlo hhi => ?_, fun hquiet => ?_⟩
  · rw [hostDataRead_running (s := s.withInputs rest) hb (Snapshot.inOutput_iff.mpr ⟨i, hd, hlo, hhi⟩)]; rfl
  · rw [hostDataRead_quiet]
    · rfl
    · exact hquiet.imp_right fun h => Snapshot.inOutput_eq_false (S := s.snap) <|
        h.imp_right fun ⟨i, hd, hout⟩ => ⟨i, hd, by omega⟩

/-- Settles O18: the byte lands by the laws of memory, and the race rule marks it in the two regions alone. -/
theorem dataWriteRecordsRace : Obligations.DataWriteRecordsRace := by
  refine ⟨fun m a b hm => ⟨Memory.read_write_same hm a b, fun x hx => Memory.read_write_other m hx b⟩, ?_⟩
  intro s addr b rest hi
  have hstep : step s = .next (hostDataWrite addr b (s.withInputs rest)) := step_of_cons hi
  rw [hstep]
  refine ⟨fun i hb hd hin => ?_, fun hquiet => ?_⟩
  · rw [hostDataWrite_racing (s := s.withInputs rest) hb]
    · rfl
    · exact hin.imp (fun hm => Snapshot.inMessage_iff.mpr ⟨⟨i, hd⟩, hm⟩) fun ho => Snapshot.inOutput_iff.mpr ⟨i, hd, ho⟩
  · rw [hostDataWrite_quiet]
    · rfl
    · refine hquiet.imp_right ?_
      rintro (he | ⟨i, hd, hm, ho⟩)
      · exact ⟨Snapshot.inMessage_eq_false (.inl he), Snapshot.inOutput_eq_false (.inl he)⟩
      · exact ⟨Snapshot.inMessage_eq_false (.inr hm), Snapshot.inOutput_eq_false (.inr ⟨i, hd, ho⟩)⟩

/-- Settles O28: a command that writes has every byte of its output admitted, and writes no other. -/
theorem rejectedByteNeverWritten : Obligations.RejectedByteNeverWritten := by
  intro i s a hraced hrej
  refine ⟨_, exec_eq i s, ?_⟩
  rcases runHash_cases i.variant i.term s with ⟨hr, -⟩ | ⟨-, e, -, heq⟩ | ⟨-, hpass, -⟩
  · rw [hraced] at hr; cases hr
  · rw [heq]; rfl
  · refine runHash_read_other ?_
    by_contra hin
    have hadm := hpass.outAdmitted (a - s.snap.outBase.toNat) (by omega)
    rw [Nat.add_sub_cancel' (by omega), hrej] at hadm
    cases hadm

/-- Settles O46, from the text of a chaining state: where its characters stand, how many, and what each can be. -/
theorem digestIsLowercaseHex : Obligations.DigestIsLowercaseHex := by
  refine ⟨fun msg => ⟨?_, ?_⟩, fun c m j hm hj => c.getD_text hm hj, fun c m j hm hj => c.getD_text hm hj,
    fun v msg => ⟨?_, fun b hb => ?_⟩⟩
  · rw [Datapath.run_chain]; rfl
  · rw [Datapath.run_chain]; rfl
  · rw [length_digestText]; cases v <;> rfl
  · obtain ⟨d, rfl⟩ := mem_digestText hb
    exact hexChar_range d

/-- Settles O53, from what can change a byte. -/
theorem memoryChangesConfined : Obligations.MemoryChangesConfined := by
  intro s t a h hne
  exact (step_changes_byte h hne).imp_right fun ⟨hmove, hb, hout⟩ => ⟨hb, hmove, Snapshot.inOutput_iff.mp hout⟩

/-- Settles O57: the step is a host's move, and the only one that changes a message byte marks the command. -/
theorem messageStableUnlessRaced : Obligations.MessageStableUnlessRaced := by
  intro s t i h hb hd hb' hunraced
  obtain ⟨x, rest, hi, hengine, hreset⟩ := host_move_of_stays_busy h hb hb'
  refine message_congr (runningCommandIsLatched s t x rest hi hengine hreset hb h).1 fun k hk => ?_
  by_contra hne
  rcases step_changes_byte h hne with ⟨addr, v, rest', hw, ha⟩ | ⟨hnext | ⟨rest', hr⟩, -⟩
  · have hm : s.snap.inMessage addr.toNat = true := Snapshot.inMessage_iff.mpr ⟨⟨i, hd⟩, by omega⟩
    rw [step_of_cons hw, takeInput, hostDataWrite_racing (s := s.withInputs rest') hb (.inl hm)] at h
    cases h
    cases hunraced
  · rw [State.engineNext, hi] at hnext
    exact hengine (by simpa using hnext)
  · rw [hi] at hr
    cases hr
    exact hreset rfl

/-- Settles O16: the port refuses the access before the move can have a step. -/
theorem partialRegisterAccessRefused : Obligations.PartialRegisterAccessRefused := by
  intro s addr v width rest hin hpart
  have hslot := regSlot_partial hin hpart
  refine ⟨fun hi => ?_, fun hi => ?_⟩
  · rw [step_of_cons hi, takeInput, hostRegRead, State.withInputs_platform, hslot]
  · rw [step_of_cons hi, takeInput, hostRegWrite, State.withInputs_platform, hslot]

end

section
/-! The command word (30 R50 to R57): its fields, decoded and encoded, masked, and as a row of the
opcode table. -/

namespace Sys2Proof

/-- A word is determined by its fields, which cover its 64 bits without a gap (30 R50). -/
theorem CommandWord.ofBits_inj {v u : Word64} : CommandWord.ofBits v = CommandWord.ofBits u ↔ v = u := by
  refine ⟨fun h => BitVec.eq_of_getLsbD_eq fun k hk => ?_, congrArg CommandWord.ofBits⟩
  obtain ⟨hrsv, hterm, hvar, hopc⟩ := CommandWord.mk.inj h
  have hk : k < 8 ∨ k = 8 ∨ k = 9 ∨ (10 ≤ k ∧ k < 64) := by omega
  rcases hk with hk | rfl | rfl | ⟨hlo, hhi⟩
  · simpa [hk] using congrArg (BitVec.getLsbD · k) hopc
  · exact hvar
  · exact hterm
  · simpa [hlo, show k - 10 < 54 by omega] using congrArg (BitVec.getLsbD · (k - 10)) hrsv

/-- The two checks of 30 R54 as field values. -/
theorem CommandWord.wellFormed_iff (c : CommandWord) : c.wellFormed = true ↔ c.opc = 0x01#8 ∧ c.rsv = 0#54 := by
  simp [CommandWord.wellFormed, CommandWord.opcodeLegal, CommandWord.reservedClear]

/-- Legal words differ in VAR or TERM alone (30 R56). -/
theorem CommandWord.eq_of_wellFormed {c d : CommandWord} (hc : c.wellFormed = true) (hd : d.wellFormed = true)
    (hvar : c.var = d.var) (hterm : c.term = d.term) : c = d := by
  obtain ⟨hcopc, hcrsv⟩ := c.wellFormed_iff.mp hc
  obtain ⟨hdopc, hdrsv⟩ := d.wellFormed_iff.mp hd
  cases c; cases d
  exact (CommandWord.mk.injEq ..).mpr ⟨hcrsv.trans hdrsv.symm, hterm, hvar, hcopc.trans hdopc.symm⟩

/-- VAR and TERM select the command that has them, and no other (30 R56). -/
theorem instrOf_eq_iff {var term : Bool} {i : Instr} :
    instrOf var term = i ↔ var = decide (i.variant = .v512) ∧ term = i.term := by
  cases i <;> revert var term <;> decide

/-- A word decodes to a command iff it is legal and carries the command's VAR and TERM (30 R54, R56). -/
theorem decode_eq_ok_iff {v : Word64} {i : Instr} :
    decode v = .ok i ↔ (CommandWord.ofBits v).wellFormed = true ∧
      (CommandWord.ofBits v).var = decide (i.variant = .v512) ∧ (CommandWord.ofBits v).term = i.term := by
  rw [decode, ← instrOf_eq_iff, CommandWord.wellFormed]
  cases (CommandWord.ofBits v).opcodeLegal <;> cases (CommandWord.ofBits v).reservedClear <;> simp

/-- The words that decode to a command are the legal ones (30 R54). -/
theorem exists_decode_eq_ok_iff {v : Word64} : (∃ i, decode v = .ok i) ↔ (CommandWord.ofBits v).wellFormed = true :=
  ⟨fun ⟨_, h⟩ => (decode_eq_ok_iff.mp h).1, fun h => ⟨_, decode_eq_ok_iff.mpr ⟨h, instrOf_eq_iff.mp rfl⟩⟩⟩

/-- Every command's word is legal and carries the command's VAR and TERM (30 R56). -/
theorem encode_legal : ∀ i : Instr, Laws.EncodingLegal.Statement i
  | .hash256 => Laws.EncodingLegal.hash256
  | .hash256t => Laws.EncodingLegal.hash256t
  | .hash512 => Laws.EncodingLegal.hash512
  | .hash512t => Laws.EncodingLegal.hash512t

/-- Encoding, then decoding. -/
theorem decode_encode (i : Instr) : decode (encode i) = .ok i := decode_eq_ok_iff.mpr (encode_legal i).2

/-- The word that decodes to a command is the command's own: both are legal, with one VAR and one TERM. -/
theorem decode_eq_ok_iff_eq_encode {v : Word64} {i : Instr} : decode v = .ok i ↔ v = encode i := by
  refine ⟨fun h => ?_, fun h => h ▸ decode_encode i⟩
  obtain ⟨hv, hvar, hterm⟩ := decode_eq_ok_iff.mp h
  obtain ⟨-, he, hevar, heterm⟩ := encode_legal i
  exact CommandWord.ofBits_inj.mp
    (CommandWord.eq_of_wellFormed hv he (hvar.trans hevar.symm) (hterm.trans heterm.symm))

/-- The decoder's mask of 30 R56 clears VAR and TERM and keeps the other fields. -/
theorem CommandWord.ofBits_and_mask (v : Word64) : CommandWord.ofBits (v &&& 0xFFFFFFFFFFFFFCFF) =
    { CommandWord.ofBits v with term := false, var := false } := by
  have hrsv : (0xFFFFFFFFFFFFFCFF : Word64).extractLsb' 10 54 = BitVec.allOnes 54 := by decide
  have hopc : (0xFFFFFFFFFFFFFCFF : Word64).extractLsb' 0 8 = BitVec.allOnes 8 := by decide
  have hterm : (0xFFFFFFFFFFFFFCFF : Word64).getLsbD 9 = false := by decide
  have hvar : (0xFFFFFFFFFFFFFCFF : Word64).getLsbD 8 = false := by decide
  simp only [CommandWord.ofBits, BitVec.extractLsb'_and, BitVec.getLsbD_and, hrsv, hopc, hterm, hvar,
    BitVec.and_allOnes, Bool.and_false]

/-- The decoder's mask check of 30 R56 is the legality of 30 R54. -/
theorem and_mask_eq_one_iff {v : Word64} :
    v &&& 0xFFFFFFFFFFFFFCFF = 0x0000000000000001 ↔ (CommandWord.ofBits v).wellFormed = true := by
  have hone : CommandWord.ofBits 0x0000000000000001 = { rsv := 0, term := false, var := false, opc := 0x01 } := by
    decide
  rw [← CommandWord.ofBits_inj, CommandWord.ofBits_and_mask, hone, CommandWord.wellFormed_iff, and_comm]
  simp

/-- A row of the opcode table of at most 64 bits is read as the command whose word it is (30 R57). -/
theorem decodeTableWord_eq_some_iff {nbits w : Nat} {i : Instr} (hbits : nbits ≤ 64) :
    decodeTableWord nbits w = some i ↔ tableWord nbits w = encode i := by
  rw [decodeTableWord, if_pos hbits, ← decode_eq_ok_iff_eq_encode]
  cases decode (tableWord nbits w) <;> simp [Except.toOption]

end Sys2Proof

open Sys2Proof

/-- Settles O3: a command's word is the one legal word with its VAR and TERM. -/
theorem decodeIffEncode : Obligations.DecodeIffEncode := fun _ _ _ => decode_eq_ok_iff_eq_encode

/-- Settles O1: the legal words are the four commands' words, and the mask check is legality field by field. -/
theorem fourLegalCommandWords : Obligations.FourLegalCommandWords := by
  have h256 : decode 0x001 = .ok .hash256 := decode_encode .hash256
  have h256t : decode 0x201 = .ok .hash256t := decode_encode .hash256t
  have h512 : decode 0x101 = .ok .hash512 := decode_encode .hash512
  have h512t : decode 0x301 = .ok .hash512t := decode_encode .hash512t
  refine ⟨fun v => ⟨?_, ?_⟩, fun v => exists_decode_eq_ok_iff.trans and_mask_eq_one_iff.symm, fun v i h => ?_,
    h256, h256t, h512, h512t⟩
  · rintro ⟨i, h⟩
    rw [decode_eq_ok_iff_eq_encode] at h
    cases i with
    | hash256 => exact .inl h
    | hash256t => exact .inr (.inl h)
    | hash512 => exact .inr (.inr (.inl h))
    | hash512t => exact .inr (.inr (.inr h))
  · rintro (rfl | rfl | rfl | rfl)
    exacts [⟨_, h256⟩, ⟨_, h256t⟩, ⟨_, h512⟩, ⟨_, h512t⟩]
  · obtain ⟨-, hvar, hterm⟩ := decode_eq_ok_iff.mp h
    have hbit : v.getLsbD 8 = decide (i.variant = .v512) := hvar
    exact ⟨by rw [hbit, decide_eq_true_iff], hterm.symm⟩

/-- Settles O4: each row is its command's word. -/
theorem tableRowsDecode : Obligations.TableRowsDecode := by
  simp only [Obligations.TableRowsDecode, decodeTableWord_eq_some_iff le_rfl]
  decide

end

section
/-! The datapath's operators (40 R102 to R110), as numbers and bit by bit, and the tables of constants against the
definitions after 40 R122. -/

namespace Sys2Proof.Machine

/-! ### Sums (40 R102, R103) -/

/-- The modular adder is the addition of the ring of `w`-bit words. -/
theorem modAdd_eq_add {w : Nat} (x y : BitVec w) : modAdd x y = x + y := rfl

/-- The carry out of the top bit is discarded. -/
theorem toNat_modAdd {w : Nat} (x y : BitVec w) : (modAdd x y).toNat = (x.toNat + y.toNat) % 2 ^ w :=
  BitVec.toNat_ofNat _ _

theorem foldl_modAdd {w : Nat} (xs : List (BitVec w)) (x : BitVec w) : xs.foldl modAdd x = x + xs.sum := by
  induction xs generalizing x with
  | nil => simp
  | cons y ys ih => rw [List.foldl_cons, ih, modAdd_eq_add, List.sum_cons, add_assoc]

/-- A sum grouped from the left is the sum in the ring, where neither grouping nor order matters. -/
theorem modSum_eq_sum {w : Nat} (xs : List (BitVec w)) : modSum xs = xs.sum := by
  cases xs with
  | nil => rfl
  | cons x xs => rw [modSum, foldl_modAdd, List.sum_cons]

/-- Reducing once at the end is reducing after every addition. -/
theorem toNat_modSum {w : Nat} (xs : List (BitVec w)) : (modSum xs).toNat = (xs.map BitVec.toNat).sum % 2 ^ w := by
  rw [modSum_eq_sum]
  induction xs with
  | nil => simp
  | cons x xs ih => rw [List.sum_cons, BitVec.toNat_add, ih, Nat.add_mod_mod, List.map_cons, List.sum_cons]

/-! ### Rotation and shift (40 R104, R105) -/

/-- The bits of a rotation below `w - n` come from the right shift, the others from the left shift. -/
theorem getLsbD_rotr {w n b : Nat} (hn : n < w) (hb : b < w) (x : BitVec w) :
    (rotr n x).getLsbD b = x.getLsbD ((b + n) % w) := by
  simp only [rotr, BitVec.getLsbD_or, BitVec.getLsbD_ushiftRight, BitVec.getLsbD_shiftLeft, hb, decide_true,
    Bool.true_and]
  by_cases hwrap : b < w - n
  · rw [Nat.mod_eq_of_lt (by omega), Nat.add_comm b n]
    simp [hwrap]
  · have hmod : (b + n) % w = b - (w - n) := by
      rw [Nat.mod_eq_sub_mod (by omega), Nat.mod_eq_of_lt (by omega)]; omega
    rw [hmod, x.getLsbD_of_ge (n + b) (by omega)]
    simp [hwrap]

theorem toNat_rotr {w : Nat} (n : Nat) (x : BitVec w) :
    (rotr n x).toNat = (x.toNat >>> n) ||| (x.toNat <<< (w - n)) % 2 ^ w := by
  rw [rotr, BitVec.toNat_or, BitVec.toNat_ushiftRight, BitVec.toNat_shiftLeft]

/-- Past the top bit, the shifted word reads 0, as `getLsbD` does. -/
theorem getLsbD_shr {w : Nat} (n : Nat) (x : BitVec w) (b : Nat) : (shr n x).getLsbD b = x.getLsbD (b + n) := by
  rw [shr, BitVec.getLsbD_ushiftRight, Nat.add_comm]

theorem toNat_shr {w : Nat} (n : Nat) (x : BitVec w) : (shr n x).toNat = x.toNat / 2 ^ n := by
  rw [shr, BitVec.toNat_ushiftRight, Nat.shiftRight_eq_div_pow]

/-! ### Ch and Maj (40 R106, R107) -/

theorem getLsbD_ch {w b : Nat} (hb : b < w) (x y z : BitVec w) :
    (ch x y z).getLsbD b = if x.getLsbD b then y.getLsbD b else z.getLsbD b := by
  simp only [ch, BitVec.getLsbD_or, BitVec.getLsbD_and, BitVec.getLsbD_not, hb, decide_true, Bool.true_and]
  cases x.getLsbD b <;> simp

/-- The two terms of Ch are never 1 in one bit, so exclusive OR joins them as OR does. -/
theorem ch_eq_xor {w : Nat} (x y z : BitVec w) : ch x y z = (x &&& y) ^^^ (~~~x &&& z) := by
  refine BitVec.eq_of_getLsbD_eq fun b hb => ?_
  simp only [getLsbD_ch hb, BitVec.getLsbD_xor, BitVec.getLsbD_and, BitVec.getLsbD_not, hb, decide_true, Bool.true_and]
  cases x.getLsbD b <;> simp

theorem getLsbD_maj {w : Nat} (x y z : BitVec w) (b : Nat) : (maj x y z).getLsbD b =
    decide (2 ≤ (x.getLsbD b).toNat + (y.getLsbD b).toNat + (z.getLsbD b).toNat) := by
  have hbit : ∀ p q r : Bool, ((p && q) || (p && r) || (q && r)) = decide (2 ≤ p.toNat + q.toNat + r.toNat) := by decide
  simp only [maj, BitVec.getLsbD_or, BitVec.getLsbD_and, hbit]

/-- Of the three terms of Maj, none, one or all are 1 in a bit, so exclusive OR joins them as OR does. -/
theorem maj_eq_xor {w : Nat} (x y z : BitVec w) : maj x y z = (x &&& y) ^^^ (x &&& z) ^^^ (y &&& z) := by
  have hbit : ∀ p q r : Bool, ((p && q) || (p && r) || (q && r)) = (((p && q) ^^ (p && r)) ^^ (q && r)) := by decide
  refine BitVec.eq_of_getLsbD_eq fun b _ => ?_
  simp only [maj, BitVec.getLsbD_or, BitVec.getLsbD_xor, BitVec.getLsbD_and, hbit]

/-! ### The sigma functions (40 R108, R109) -/

theorem getLsbD_bigSigma {w b : Nat} {n : Amounts} (h1 : n.n1 < w) (h2 : n.n2 < w) (h3 : n.n3 < w) (hb : b < w)
    (x : BitVec w) : (bigSigma n x).getLsbD b =
      ((x.getLsbD ((b + n.n1) % w) ^^ x.getLsbD ((b + n.n2) % w)) ^^ x.getLsbD ((b + n.n3) % w)) := by
  rw [bigSigma, BitVec.getLsbD_xor, BitVec.getLsbD_xor, getLsbD_rotr h1 hb, getLsbD_rotr h2 hb, getLsbD_rotr h3 hb]

theorem getLsbD_smallSigma {w b : Nat} {n : Amounts} (h1 : n.n1 < w) (h2 : n.n2 < w) (hb : b < w) (x : BitVec w) :
    (smallSigma n x).getLsbD b =
      ((x.getLsbD ((b + n.n1) % w) ^^ x.getLsbD ((b + n.n2) % w)) ^^ x.getLsbD (b + n.n3)) := by
  rw [smallSigma, BitVec.getLsbD_xor, BitVec.getLsbD_xor, getLsbD_rotr h1 hb, getLsbD_rotr h2 hb, getLsbD_shr]

/-! ### The tables of constants (40 R120 to R122) -/

/-- The primes the tables are made from, in order. -/
def tablePrimes : List Nat :=
  [2, 3, 5, 7, 11, 13, 17, 19, 23, 29, 31, 37, 41, 43, 47, 53, 59, 61, 67, 71, 73, 79, 83, 89, 97, 101, 103, 107, 109,
   113, 127, 131, 137, 139, 149, 151, 157, 163, 167, 173, 179, 181, 191, 193, 197, 199, 211, 223, 227, 229, 233, 239,
   241, 251, 257, 263, 269, 271, 277, 281, 283, 293, 307, 311, 313, 317, 331, 337, 347, 349, 353, 359, 367, 373, 379,
   383, 389, 397, 401, 409]

/-- Trial division by the numbers below 21 is enough for the numbers below its square. -/
theorem prime_iff_trialDivision {q : Nat} (hq : q < 21 * 21) :
    q.Prime ↔ 2 ≤ q ∧ ∀ m < 21, 2 ≤ m → m < q → ¬ m ∣ q := by
  refine ⟨fun h => ⟨h.two_le, fun m _ hm hlt hdvd => ?_⟩, fun ⟨htwo, htrial⟩ => ?_⟩
  · rcases (Nat.dvd_prime h).mp hdvd with rfl | rfl <;> omega
  · refine Nat.prime_def_le_sqrt.mpr ⟨htwo, fun m hm hsqrt => ?_⟩
    have hsq : m * m ≤ q := Nat.le_sqrt.mp hsqrt
    exact htrial m (by nlinarith) hm (by nlinarith)

theorem tablePrimes_eq_filter :
    tablePrimes = (List.range 410).filter fun q => 2 ≤ q ∧ ∀ m < 21, 2 ≤ m → m < q → ¬ m ∣ q := by decide +kernel

theorem tablePrimes_pairwise_lt : tablePrimes.Pairwise (· < ·) := by
  rw [tablePrimes_eq_filter]
  exact List.pairwise_lt_range.filter _

theorem mem_tablePrimes {q : Nat} : q ∈ tablePrimes ↔ q ≤ 409 ∧ q.Prime := by
  rw [tablePrimes_eq_filter, List.mem_filter, List.mem_range, decide_eq_true_iff, Nat.lt_succ_iff]
  exact and_congr_right fun hle => (prime_iff_trialDivision (by omega)).symm

/-- `c` is the low `w` bits of the integer `d`-th root of `p * 2^(d*w)`, whose higher bits are below `bound` (the
definitions after 40 R122). -/
abbrev IsRootFraction (d w bound p c : Nat) : Prop :=
  ∃ m, m < bound ∧ (m * 2 ^ w + c) ^ d ≤ p * 2 ^ (d * w) ∧ p * 2 ^ (d * w) < (m * 2 ^ w + c + 1) ^ d

theorem k256_rootFraction : ∀ r, r < 64 →
    IsRootFraction 3 32 8 (tablePrimes.getD r 0) (params256.k.getD r 0).toNat := by decide +kernel

theorem k512_rootFraction : ∀ r, r < 80 →
    IsRootFraction 3 64 8 (tablePrimes.getD r 0) (params512.k.getD r 0).toNat := by decide +kernel

theorem iv256_rootFraction : ∀ j, j < 8 →
    IsRootFraction 2 32 5 (tablePrimes.getD j 0) (params256.iv.words.getD j 0).toNat := by decide +kernel

theorem iv512_rootFraction : ∀ j, j < 8 →
    IsRootFraction 2 64 5 (tablePrimes.getD j 0) (params512.iv.words.getD j 0).toNat := by decide +kernel

end Sys2Proof.Machine

open Sys2Proof.Machine

/-- Settles O32: a modular sum is a sum in the commutative ring of words. -/
theorem sumAnyGrouping : Obligations.SumAnyGrouping := by
  intro w xs ys
  refine ⟨toNat_modSum xs, ?_, fun hperm => ?_⟩
  · simp only [modSum_eq_sum, modAdd_eq_add, List.sum_append]
  · rw [modSum_eq_sum, modSum_eq_sum, hperm.sum_eq]

/-- Settles O33: each bit of a rotation comes from one of its two shifts. -/
theorem rotateAndShift : Obligations.RotateAndShift := fun _ n x _ hn =>
  ⟨fun _ hb => getLsbD_rotr hn hb x, toNat_rotr n x, toNat_shr n x⟩

/-- Settles O34: the forms with OR are the model's own, and the others agree with them bit by bit. -/
theorem chooseAndMajority : Obligations.ChooseAndMajority := fun _ x y z =>
  ⟨rfl, fun _ hb => getLsbD_ch hb x y z, ch_eq_xor x y z, rfl, fun b _ => getLsbD_maj x y z b, maj_eq_xor x y z⟩

/-- Settles O35: the bits of a sigma function at each of the eight rows of amounts, all below the width. -/
theorem sigmaFunctionBits : Obligations.SigmaFunctionBits := by
  refine ⟨fun x b hb => ⟨?_, ?_, ?_, ?_⟩, fun x b hb => ⟨?_, ?_, ?_, ?_⟩⟩
  · exact getLsbD_bigSigma (n := params256.bigSigma0) (by decide) (by decide) (by decide) hb x
  · exact getLsbD_bigSigma (n := params256.bigSigma1) (by decide) (by decide) (by decide) hb x
  · exact getLsbD_smallSigma (n := params256.smallSigma0) (by decide) (by decide) hb x
  · exact getLsbD_smallSigma (n := params256.smallSigma1) (by decide) (by decide) hb x
  · exact getLsbD_bigSigma (n := params512.bigSigma0) (by decide) (by decide) (by decide) hb x
  · exact getLsbD_bigSigma (n := params512.bigSigma1) (by decide) (by decide) (by decide) hb x
  · exact getLsbD_smallSigma (n := params512.smallSigma0) (by decide) (by decide) hb x
  · exact getLsbD_smallSigma (n := params512.smallSigma1) (by decide) (by decide) hb x

/-- Settles O31, by the rule of the adder. -/
theorem adderWrapsAround : Obligations.AdderWrapsAround := fun _ => toNat_modAdd

/-- Settles O36: the list is the primes below 410, and the four tables are evaluated against it. -/
theorem tablesMatchTheirDefinitions : Obligations.TablesMatchTheirDefinitions :=
  ⟨tablePrimes, rfl, tablePrimes_pairwise_lt, fun _ hq => (mem_tablePrimes.mp hq).2,
    fun _ hprime hle => mem_tablePrimes.mpr ⟨hle, hprime⟩, ⟨length_k256, k256_rootFraction⟩,
    ⟨length_k512, k512_rootFraction⟩, iv256_rootFraction, iv512_rootFraction⟩

end


section
/-! The padder (41 R131 to R135): the zero-padding count, the padded buffer's length and its bytes. -/

namespace Sys2Proof.Machine

/-! ### The zero-padding count and the padded length (41 R133, R135) -/

/-- R133's formula over the integers: its residue is not negative, so taking it as a count loses nothing. -/
theorem zeroPadding_cast (v : Variant) (n : Nat) :
    (zeroPadding v n : Int) = ((blockBits v : Int) - lengthBits v - 1 - 8 * n) % blockBits v := by
  have hpos : (blockBits v : Int) ≠ 0 := by cases v <;> decide
  rw [zeroPadding, Int.toNat_of_nonneg (Int.emod_nonneg _ hpos), bitLength, Nat.cast_mul]; rfl

/-- A variant's count in the numbers of 40 R100. -/
theorem zeroPadding_v256 (n : Nat) : (zeroPadding .v256 n : Int) = 8 * ((55 - n) % 64) + 7 := by
  rw [zeroPadding_cast, blockBits, lengthBits]; omega

theorem zeroPadding_v512 (n : Nat) : (zeroPadding .v512 n : Int) = 8 * ((111 - n) % 128) + 7 := by
  rw [zeroPadding_cast, blockBits, lengthBits]; omega

theorem zeroPadding_lt (v : Variant) (n : Nat) : zeroPadding v n < blockBits v := by
  cases v with
  | v256 => have := zeroPadding_v256 n; rw [blockBits]; omega
  | v512 => have := zeroPadding_v512 n; rw [blockBits]; omega

theorem zeroPadding_mod_eight (v : Variant) (n : Nat) : zeroPadding v n % 8 = 7 := by
  cases v with
  | v256 => have := zeroPadding_v256 n; omega
  | v512 => have := zeroPadding_v512 n; omega

/-- The padding equation of R133 fixes its solutions modulo the block size, and `zeroPadding` is their residue. -/
theorem paddingEquation_iff (v : Variant) (n k : Nat) :
    (8 * n + 1 + k) % blockBits v = blockBits v - lengthBits v ↔ k % blockBits v = zeroPadding v n := by
  cases v with
  | v256 => have := zeroPadding_v256 n; rw [blockBits, lengthBits]; omega
  | v512 => have := zeroPadding_v512 n; rw [blockBits, lengthBits]; omega

/-- The padded buffer is as many blocks of `B/8` bytes as the message and the length field take, and the one they end
in (41 R135). -/
theorem paddedLength_eq_blocks (v : Variant) (n : Nat) :
    paddedLength v n = blockBits v / 8 * ((n + lengthBits v / 8) / (blockBits v / 8) + 1) := by
  cases v with
  | v256 => have := zeroPadding_v256 n; rw [paddedLength, blockBits, lengthBits]; omega
  | v512 => have := zeroPadding_v512 n; rw [paddedLength, blockBits, lengthBits]; omega

theorem blockBytes_pos (v : Variant) : 0 < blockBits v / 8 := by cases v <;> decide

/-- The number of blocks of the padded buffer (41 R135). -/
theorem length_pad_div (v : Variant) (msg : List Byte) :
    (pad v msg).length / (blockBits v / 8) = (msg.length + lengthBits v / 8) / (blockBits v / 8) + 1 := by
  rw [length_pad, paddedLength_eq_blocks, Nat.mul_div_cancel_left _ (blockBytes_pos v)]

/-! ### Big-endian integers (00 R4) -/

theorem getD_bigEndian {n i : Nat} (hi : i < n) (x : Nat) :
    (bigEndian n x).getD i 0 = BitVec.ofNat 8 (x >>> (8 * (n - 1 - i))) := by
  simp [bigEndian, hi]

theorem toNat_getD_bigEndian {n i : Nat} (hi : i < n) (x : Nat) :
    ((bigEndian n x).getD i 0).toNat = x / 2 ^ (8 * (n - 1 - i)) % 256 := by
  rw [getD_bigEndian hi, BitVec.toNat_ofNat, Nat.shiftRight_eq_div_pow]

/-- One byte more is the low byte of the integer, after the encoding of the rest. -/
theorem bigEndian_succ (n x : Nat) : bigEndian (n + 1) x = bigEndian n (x / 256) ++ [BitVec.ofNat 8 x] := by
  have hshift : ∀ i ∈ List.range n,
      BitVec.ofNat 8 (x >>> (8 * (n + 1 - 1 - i))) = BitVec.ofNat 8 ((x / 256) >>> (8 * (n - 1 - i))) := by
    intro i hi
    have hlt : i < n := List.mem_range.mp hi
    rw [show x / 256 = x >>> 8 from (Nat.shiftRight_eq_div_pow x 8).symm, ← Nat.shiftRight_add,
      show 8 + 8 * (n - 1 - i) = 8 * (n + 1 - 1 - i) by omega]
  rw [bigEndian, List.range_succ, List.map_append, List.map_congr_left hshift, bigEndian]
  simp

theorem fromBigEndian_concat (s : List Byte) (b : Byte) :
    fromBigEndian (s ++ [b]) = 256 * fromBigEndian s + b.toNat := by
  rw [fromBigEndian, List.foldl_append]; rfl

/-- Reading an encoding back gives the integer modulo what the bytes can hold. -/
theorem fromBigEndian_bigEndian (n x : Nat) : fromBigEndian (bigEndian n x) = x % 256 ^ n := by
  induction n generalizing x with
  | zero => rw [Nat.pow_zero, Nat.mod_one]; rfl
  | succ n ih =>
    rw [bigEndian_succ, fromBigEndian_concat, ih, BitVec.toNat_ofNat, Nat.pow_succ' (m := 256), Nat.mod_mul (a := 256),
      Nat.add_comm]

/-! ### The padded buffer, part by part (41 R134) -/

/-- The message stands first. -/
theorem getD_pad_message (v : Variant) {msg : List Byte} {j : Nat} (hj : j < msg.length) :
    (pad v msg).getD j 0 = msg.getD j 0 := by
  rw [pad, List.append_assoc, List.append_assoc, List.getD_append _ _ _ _ hj]

/-- What follows the message, counted from its end. -/
theorem getD_pad_add (v : Variant) (msg : List Byte) (j : Nat) :
    (pad v msg).getD (msg.length + j) 0 =
      ([0x80] ++ zeroBytes (zeroPadding v msg.length / 8) ++
        bigEndian (lengthBits v / 8) (bitLength msg.length)).getD j 0 := by
  rw [pad, List.append_assoc, List.append_assoc, List.getD_append_right _ _ _ _ (Nat.le_add_right _ _),
    Nat.add_sub_cancel_left, List.append_assoc]

/-- The byte 0x80 stands right after the message. -/
theorem getD_pad_mark (v : Variant) (msg : List Byte) : (pad v msg).getD msg.length 0 = 0x80 :=
  getD_pad_add v msg 0

/-- The zero bytes stand between the byte 0x80 and the length field. -/
theorem getD_pad_zero (v : Variant) {msg : List Byte} {j : Nat} (hj : j < zeroPadding v msg.length / 8) :
    (pad v msg).getD (msg.length + (1 + j)) 0 = 0x00 := by
  rw [getD_pad_add, List.append_assoc, List.getD_append_right _ _ _ _ (by simp),
    List.getD_append _ _ _ _ (by simpa using hj), List.length_singleton, Nat.add_sub_cancel_left, zeroBytes,
    List.getD_replicate _ hj]

/-- The length field is the rest of the padded buffer. -/
theorem drop_pad (v : Variant) (msg : List Byte) :
    (pad v msg).drop (msg.length + 1 + zeroPadding v msg.length / 8) =
      bigEndian (lengthBits v / 8) (bitLength msg.length) :=
  List.drop_left' (by simp; omega)

/-- The bytes of the length field, counted from its start. -/
theorem getD_pad_lengthField (v : Variant) (msg : List Byte) (i : Nat) :
    (pad v msg).getD (msg.length + 1 + zeroPadding v msg.length / 8 + i) 0 =
      (bigEndian (lengthBits v / 8) (bitLength msg.length)).getD i 0 := by
  rw [← drop_pad, List.getD_eq_getElem?_getD, List.getD_eq_getElem?_getD, List.getElem?_drop]

/-- The length field holds the bit length modulo `2^F`. -/
theorem fromBigEndian_lengthField (v : Variant) (x : Nat) :
    fromBigEndian (bigEndian (lengthBits v / 8) x) = x % 2 ^ lengthBits v := by
  rw [fromBigEndian_bigEndian]; cases v <;> rfl

end Sys2Proof.Machine

open Sys2Proof Sys2Proof.Machine

/-- Settles O41: the solutions of the padding equation are the counts with `zeroPadding` as residue, so it is the
least. -/
theorem zeroPaddingIsLeast : Obligations.ZeroPaddingIsLeast := by
  refine ⟨⟨rfl, rfl, rfl, rfl⟩, fun v n => ⟨?_, fun k hk => ?_, zeroPadding_lt v n, zeroPadding_mod_eight v n, ?_, ?_⟩⟩
  · exact (paddingEquation_iff v n _).mpr (Nat.mod_eq_of_lt (zeroPadding_lt v n))
  · rw [← (paddingEquation_iff v n k).mp hk]
    exact Nat.mod_le _ _
  · have := zeroPadding_v256 n; omega
  · have := zeroPadding_v512 n; omega

/-- Settles O42, from the padded length as a number of blocks. -/
theorem paddedBufferIsWholeBlocks : Obligations.PaddedBufferIsWholeBlocks := by
  intro v msg
  refine ⟨length_pad v msg, length_pad v msg, ?_, ?_, length_pad_div .v256 msg, length_pad_div .v512 msg⟩
  · rw [length_pad, paddedLength_eq_blocks, Nat.mul_mod_right]
  · rw [length_pad_div]; exact Nat.le_add_left _ _

/-- Settles O43, part by part of the buffer. -/
theorem paddedBufferLayout : Obligations.PaddedBufferLayout := by
  intro v msg n z
  refine ⟨length_pad v msg, fun j hj => getD_pad_message v hj, getD_pad_mark v msg, fun j hlo hhi => ?_,
    fun i hi => ?_, fun hfits => ?_⟩
  · obtain ⟨k, rfl⟩ : ∃ k, j = n + (1 + k) := ⟨j - n - 1, by omega⟩
    have hk : k < z := by omega
    exact getD_pad_zero v hk
  · rw [getD_pad_lengthField, toNat_getD_bigEndian hi]; rfl
  · rw [drop_pad, fromBigEndian_lengthField]
    exact Nat.mod_eq_of_lt hfits

end

section
/-! A HASH command that no host raced: the message it reads, which of its two outcomes it has, when the length check
decides it, and what it writes. -/

namespace Sys2Proof.Machine

/-! ### The message's bytes (41 R130) -/

theorem getD_message {s : State} {k : Nat} (hk : k < s.snap.msgLen.toNat) :
    s.message.getD k 0 = s.mem.read (s.snap.msgBase.toNat + k) := by
  simp [State.message, hk]

/-! ### A command that no host raced (45 R214, R215) -/

/-- The checks in their order, each asked only when those before it pass (45 R215). -/
theorem firstError_eq_or (p : Platform) (v : Variant) (term : Bool) (S : Snapshot) :
    firstError p v term S =
      (checkLength v S).or ((checkCapacity p v S).or ((checkMsgWrap S).or ((checkMsgBus p S).or
        ((checkOutCap v term S).or ((checkOutWrap v term S).or (checkOutBus p v term S)))))) := by
  unfold firstError
  repeat' split
  all_goals simp only [*, Option.none_or, Option.some_or]

/-- A failing check comes from step 2, or from a later step, which reports another code than step 2 (60 R241). -/
theorem checkLength_or_ne_lengthOverflow {p : Platform} {v : Variant} {term : Bool} {S : Snapshot} {e : ErrorReport}
    (h : firstError p v term S = some e) : checkLength v S = some e ∨ e.code ≠ .lengthOverflow := by
  simp only [firstError_eq_or, Option.or_eq_some_iff] at h
  rcases h with h | ⟨-, h | ⟨-, h | ⟨-, h | ⟨-, h | ⟨-, h | ⟨-, h⟩⟩⟩⟩⟩⟩
  · exact .inl h
  · refine .inr ?_
    rw [checkCapacity] at h
    split at h
    · cases h
    · obtain ⟨-, ⟨⟩⟩ := Option.ite_none_right_eq_some.mp h; exact nofun
  · obtain ⟨-, ⟨⟩⟩ := Option.ite_none_right_eq_some.mp h; exact .inr nofun
  · obtain ⟨a, -, rfl⟩ := Option.map_eq_some_iff.mp h; exact .inr nofun
  · obtain ⟨-, ⟨⟩⟩ := Option.ite_none_right_eq_some.mp h; exact .inr nofun
  · obtain ⟨-, ⟨⟩⟩ := Option.ite_none_right_eq_some.mp h; exact .inr nofun
  · obtain ⟨a, -, rfl⟩ := Option.map_eq_some_iff.mp h; exact .inr nofun

theorem firstError_of_tooLong {v : Variant} {S : Snapshot} (h : 2 ^ lengthBits v ≤ 8 * S.msgLen.toNat) (p : Platform)
    (term : Bool) : firstError p v term S = some ⟨.lengthOverflow, S.msgLen⟩ := by
  rw [firstError_eq_or, checkLength, bitLength, if_pos h, Option.some_or]

theorem firstError_ne_lengthOverflow {p : Platform} {v : Variant} {term : Bool} {S : Snapshot} {e : ErrorReport}
    (hlen : 8 * S.msgLen.toNat < 2 ^ lengthBits v) (h : firstError p v term S = some e) :
    e.code ≠ .lengthOverflow := by
  refine (checkLength_or_ne_lengthOverflow h).resolve_left fun hcheck => ?_
  rw [checkLength, bitLength, if_neg (Nat.not_le.mpr hlen)] at hcheck
  cases hcheck

/-- Without a race the first failing check decides the completion. -/
theorem runHash_of_error {v : Variant} {term : Bool} {s : State} {e : ErrorReport} (hraced : s.raced = false)
    (he : firstError s.platform v term s.snap = some e) : runHash v term s = s.raiseError e := by
  simp [runHash, hraced, State.execute, he]

/-- Without a race a command whose checks all pass writes its digest. -/
theorem runHash_of_checksPass {v : Variant} {term : Bool} {s : State} (hraced : s.raced = false)
    (hpass : ChecksPass v term s) : runHash v term s = ((s.hashMessage v).writeOutput term).complete .none 0 := by
  simp [runHash, hraced, State.execute, firstError_eq_none.mpr hpass]

/-- A message whose bit length the length field holds never completes with LENGTH_OVERFLOW (41 R132). -/
theorem runHash_err_ne_lengthOverflow {v : Variant} {s : State} (hraced : s.raced = false)
    (hlen : 8 * s.snap.msgLen.toNat < 2 ^ lengthBits v) (term : Bool) :
    (runHash v term s).status.err ≠ .lengthOverflow := by
  rcases runHash_cases v term s with ⟨hr, -⟩ | ⟨-, e, he, heq⟩ | ⟨-, -, heq⟩
  · rw [hraced] at hr; cases hr
  · rw [heq]; exact firstError_ne_lengthOverflow hlen he
  · rw [heq]; exact nofun

/-- The output bytes after a command whose checks all pass (44 R194, R196). -/
theorem runHash_read_output {v : Variant} {term : Bool} {s : State} (hm : s.mem.wf) (hraced : s.raced = false)
    (hpass : ChecksPass v term s) {j : Nat} (hj : j < need v term) :
    (runHash v term s).mem.read (s.snap.outBase.toNat + j) =
      (digestText v s.message ++ terminator term).getD j 0 := by
  rw [runHash_of_checksPass hraced hpass, State.complete_mem, mem_writeOutput, Memory.read_writeBytes hm.1,
    length_output, if_pos (by omega), Nat.add_sub_cancel_left]

end Sys2Proof.Machine

open Sys2Proof Sys2Proof.Machine

/-- Settles O27: 8 * 2^61 is 2^64, the least bit length that 64 bits cannot hold, and 128 bits hold every one. -/
theorem lengthOverflowExactly : Obligations.LengthOverflowExactly := by
  intro i s hraced
  refine ⟨_, exec_eq i s, fun hv hlong => ?_, fun hv hshort => ?_, fun hv => ?_⟩ <;> rw [hv]
  · rw [runHash_of_error hraced (firstError_of_tooLong (v := .v256) (by rw [lengthBits]; omega) _ _)]
    exact ⟨rfl, rfl, rfl⟩
  · exact runHash_err_ne_lengthOverflow hraced (by rw [lengthBits]; omega) _
  · exact runHash_err_ne_lengthOverflow hraced (by rw [lengthBits]; omega) _

/-- Settles O30: the checks read the snapshot and the platform alone, and the digest the message alone. -/
theorem outcomeDependsOnMessageOnly : Obligations.OutcomeDependsOnMessageOnly := by
  refine ⟨fun s => ⟨length_message s, fun k hk => getD_message hk⟩, ?_⟩
  intro i s1 s2 hm1 hm2 hr1 hr2 hsnap hplat hbytes
  refine ⟨_, _, exec_eq i s1, exec_eq i s2, ?_⟩
  cases he : firstError s1.platform i.variant i.term s1.snap with
  | some e =>
    have he2 : firstError s2.platform i.variant i.term s2.snap = some e := by rw [← hplat, ← hsnap, he]
    rw [runHash_of_error hr1 he, runHash_of_error hr2 he2]
    exact ⟨rfl, rfl, fun hnone => absurd hnone (firstError_code he).1⟩
  | none =>
    have hpass1 : ChecksPass i.variant i.term s1 := firstError_eq_none.mp he
    have hpass2 : ChecksPass i.variant i.term s2 := firstError_eq_none.mp (by rw [← hplat, ← hsnap, he])
    have hmsg : s1.message = s2.message := message_congr hsnap (hsnap ▸ hbytes)
    refine ⟨?_, ?_, fun _ j hj => ?_⟩
    · rw [runHash_of_checksPass hr1 hpass1, runHash_of_checksPass hr2 hpass2]; rfl
    · rw [runHash_of_checksPass hr1 hpass1, runHash_of_checksPass hr2 hpass2]; rfl
    · rw [runHash_read_output hm1 hr1 hpass1 hj, hsnap, runHash_read_output hm2 hr2 hpass2 hj, hmsg]

end

section
/-! The block scheduler (42 R150 to R152): the block split, the big-endian words of a block, and the words that the
expander appends. -/

namespace Sys2Proof.Machine

/-! ### The block split (42 R150) -/

/-- A piece that ends inside the sequence is whole. -/
theorem length_piece {len i : Nat} {s : List Byte} (h : (i + 1) * len ≤ s.length) : (piece len i s).length = len := by
  rw [Nat.succ_mul] at h
  rw [piece, List.length_take, List.length_drop]; omega

theorem getD_piece {len m : Nat} (hm : m < len) (i : Nat) (s : List Byte) :
    (piece len i s).getD m 0 = s.getD (len * i + m) 0 := by
  rw [piece, List.getD_eq_getElem?_getD, List.getElem?_take_of_lt hm, List.getElem?_drop, Nat.mul_comm,
    List.getD_eq_getElem?_getD]

/-- The first `n` pieces, joined in order, are the sequence up to their end. -/
theorem flatten_pieces (len n : Nat) (s : List Byte) :
    ((List.range n).map fun i => piece len i s).flatten = s.take (n * len) := by
  induction n with
  | zero => rw [Nat.zero_mul]; rfl
  | succ n ih =>
    rw [List.range_succ, List.map_append, List.flatten_append, ih, Nat.succ_mul, List.take_add, List.map_singleton,
      List.flatten_singleton, piece]

/-- A buffer of whole blocks is its blocks joined in order. -/
theorem flatten_blocks {v : Variant} {p : List Byte} (h : blockBits v / 8 ∣ p.length) : (blocks v p).flatten = p := by
  rw [blocks, flatten_pieces, Nat.div_mul_cancel h, List.take_length]

theorem length_of_mem_blocks {v : Variant} {p blk : List Byte} (h : blk ∈ blocks v p) :
    blk.length = blockBits v / 8 := by
  obtain ⟨i, hi, rfl⟩ := List.mem_map.mp h
  exact length_piece ((Nat.le_div_iff_mul_le (blockBytes_pos v)).mp (List.mem_range.mp hi))

/-! ### Big-endian integers, from the first byte (00 R4) -/

theorem fromBigEndian_cons (b : Byte) (s : List Byte) :
    fromBigEndian (b :: s) = b.toNat * 256 ^ s.length + fromBigEndian s := by
  induction s using List.reverseRecOn with
  | nil => simp [fromBigEndian]
  | append_singleton s c ih =>
    rw [← List.cons_append, fromBigEndian_concat, ih, fromBigEndian_concat, List.length_append, List.length_singleton]
    ring

theorem fromBigEndian_lt (s : List Byte) : fromBigEndian s < 256 ^ s.length := by
  induction s with
  | nil => exact Nat.one_pos
  | cons b s ih =>
    have hb : (b.toNat + 1) * 256 ^ s.length ≤ 256 * 256 ^ s.length := Nat.mul_le_mul_right _ b.isLt
    rw [Nat.succ_mul] at hb
    rw [fromBigEndian_cons, List.length_cons, Nat.pow_succ']
    omega

/-- Byte `m` of a sequence counts `256` for each byte after it. -/
theorem fromBigEndian_eq_sum (s : List Byte) : fromBigEndian s =
    ((List.range s.length).map fun m => (s.getD m 0).toNat * 2 ^ (8 * s.length - 8 - 8 * m)).sum := by
  induction s with
  | nil => rfl
  | cons b s ih =>
    have hfirst : 256 ^ s.length = 2 ^ (8 * (s.length + 1) - 8 - 8 * 0) := by
      rw [show 256 = 2 ^ 8 from rfl, ← Nat.pow_mul]; rfl
    have hshift (m : Nat) : 8 * (s.length + 1) - 8 - 8 * (m + 1) = 8 * s.length - 8 - 8 * m := by omega
    rw [fromBigEndian_cons, ih, List.length_cons, List.range_succ_eq_map, List.map_cons, List.sum_cons, List.map_map,
      hfirst]
    simp only [Function.comp_def, Nat.succ_eq_add_one, List.getD_cons_succ, List.getD_cons_zero, hshift]

/-! ### The message schedule (42 R151 to R153) -/

theorem getD_unpack {w j : Nat} (hj : j < 16) (blk : List Byte) :
    (unpack w blk).getD j 0 = BitVec.ofNat w (fromBigEndian (piece (w / 8) j blk)) := by
  simp [unpack, hj]

/-- The expander leaves the words that were there. -/
theorem getD_expand_of_lt {w t : Nat} {ws : List (BitVec w)} (ht : t < ws.length) (T : Params w) (n : Nat) :
    (expand T n ws).getD t 0 = ws.getD t 0 := by
  induction n generalizing ws with
  | zero => rfl
  | succ n ih =>
    rw [expand, ih (by rw [List.length_append]; omega), List.getD_append _ _ _ _ ht]

/-- A word's recurrence reads only the words before it. -/
theorem nextWord_congr {w t : Nat} (T : Params w) {ws xs : List (BitVec w)} (ht : 0 < t)
    (h : ∀ i < t, ws.getD i 0 = xs.getD i 0) : nextWord T t ws = nextWord T t xs := by
  rw [nextWord, nextWord, h (t - 2) (by omega), h (t - 7) (by omega), h (t - 15) (by omega), h (t - 16) (by omega)]

/-- Each appended word meets the recurrence over the finished sequence, since the words it was made from stay. -/
theorem getD_expand_next {w t n : Nat} {ws : List (BitVec w)} (T : Params w) (hpos : 0 < ws.length)
    (hlo : ws.length ≤ t) (hhi : t < ws.length + n) : (expand T n ws).getD t 0 = nextWord T t (expand T n ws) := by
  induction n generalizing ws with
  | zero => omega
  | succ n ih =>
    have hlen : (ws ++ [nextWord T ws.length ws]).length = ws.length + 1 := by simp
    rcases hlo.eq_or_lt with rfl | hlt
    · have hkeep : ∀ i < ws.length, (expand T (n + 1) ws).getD i 0 = ws.getD i 0 := fun i hi =>
        getD_expand_of_lt hi T (n + 1)
      rw [nextWord_congr T hpos hkeep, expand, getD_expand_of_lt (by omega), List.getD_append_right _ _ _ _ le_rfl]
      simp
    · rw [expand]
      exact ih (by omega) (by omega) (by omega)

/-- The first 16 words are those of the block (R151). -/
theorem getD_schedule_first {w j : Nat} (hj : j < 16) (T : Params w) (blk : List Byte) :
    (schedule T blk).getD j 0 = BitVec.ofNat w (fromBigEndian (piece (w / 8) j blk)) := by
  rw [schedule, getD_expand_of_lt (by rw [length_unpack]; exact hj), getD_unpack hj]

/-- The other words meet the recurrence (R152). -/
theorem getD_schedule_next {w t : Nat} (T : Params w) (blk : List Byte) (hlo : 16 ≤ t) (hhi : t < T.rounds) :
    (schedule T blk).getD t 0 = nextWord T t (schedule T blk) :=
  getD_expand_next T (by rw [length_unpack]; omega) (by rw [length_unpack]; exact hlo) (by rw [length_unpack]; omega)

/-- A word of `k` bytes holds every integer of its bytes, so unpacking a whole block loses nothing (R151's sum). -/
theorem toNat_getD_schedule_first {k j : Nat} (T : Params (8 * k)) {blk : List Byte} (hblk : blk.length = 16 * k)
    (hj : j < 16) : ((schedule T blk).getD j 0).toNat =
      ((List.range k).map fun m => (blk.getD (k * j + m) 0).toNat * 2 ^ (8 * k - 8 - 8 * m)).sum := by
  have hlen : (piece k j blk).length = k := length_piece (by rw [hblk]; exact Nat.mul_le_mul_right k hj)
  have hlt : fromBigEndian (piece k j blk) < 2 ^ (8 * k) := by
    calc fromBigEndian (piece k j blk) < 256 ^ k := by simpa only [hlen] using fromBigEndian_lt (piece k j blk)
      _ = 2 ^ (8 * k) := (Nat.pow_mul 2 8 k).symm
  rw [getD_schedule_first hj, Nat.mul_div_cancel_left k (by decide), BitVec.toNat_ofNat, Nat.mod_eq_of_lt hlt,
    fromBigEndian_eq_sum, hlen]
  exact congrArg List.sum (List.map_congr_left fun m hm => by rw [getD_piece (List.mem_range.mp hm)])

end Sys2Proof.Machine

open Sys2Proof Sys2Proof.Machine

/-- Settles O37: the first words are those unpacked from the block, and the expander's words meet the recurrence. -/
theorem scheduleRecurrence : Obligations.ScheduleRecurrence := by
  refine ⟨⟨rfl, fromBigEndian_cons⟩, fun blk j hblk hj => toNat_getD_schedule_first (k := 4) params256 hblk hj,
    fun blk j hblk hj => toNat_getD_schedule_first (k := 8) params512 hblk hj,
    fun blk => ⟨length_schedule params256 blk, fun j hj => ?_, fun _ => getD_schedule_next params256 blk⟩,
    fun blk => ⟨length_schedule params512 blk, fun j hj => ?_, fun _ => getD_schedule_next params512 blk⟩⟩
  · rw [getD_schedule_first hj, piece, Nat.mul_comm j]
  · rw [getD_schedule_first hj, piece, Nat.mul_comm j]

/-- Settles O44: the padded buffer is a whole number of blocks, so the split leaves nothing over. -/
theorem blocksPartitionBuffer : Obligations.BlocksPartitionBuffer := by
  intro v msg
  have hwhole : blockBits v / 8 ∣ (pad v msg).length := by
    rw [length_pad, paddedLength_eq_blocks]
    exact Nat.dvd_mul_right _ _
  exact ⟨flatten_blocks hwhole, fun _ => length_of_mem_blocks⟩

end

section
/-! The compression engine (43 R171 to R176): one round, the rounds of a block as the rounds over the schedule's words so
far, and the chaining state from block to block. -/

namespace Sys2Proof.Machine

/-! ### The rounds of a block (43 R174) -/

/-- A word past the end of `ws` is paired with the constant at its own index. -/
theorem zip_concat_getD {w : Nat} {ks ws : List (BitVec w)} (h : ws.length < ks.length) (x : BitVec w) :
    ks.zip (ws ++ [x]) = ks.zip ws ++ [(ks.getD ws.length 0, x)] := by
  induction ws generalizing ks with
  | nil => cases ks with
    | nil => exact absurd h (Nat.not_lt_zero _)
    | cons k ks => simp
  | cons y ws ih => cases ks with
    | nil => exact absurd h (Nat.not_lt_zero _)
    | cons k ks =>
      rw [List.cons_append, List.zip_cons_cons, ih (Nat.lt_of_succ_lt_succ h), List.zip_cons_cons, List.cons_append,
        List.length_cons, List.getD_cons_succ]

@[simp] theorem runRounds_nil {w : Nat} (T : Params w) (v : Work w) : runRounds T [] v = v := by
  rw [runRounds, List.zip_nil_right, List.foldl_nil]

/-- One more schedule word is one more round, with the constant at that word's index. -/
theorem runRounds_concat {w : Nat} {T : Params w} {ws : List (BitVec w)} (h : ws.length < T.k.length) (v : Work w)
    (x : BitVec w) :
    runRounds T (ws ++ [x]) v = roundStep T (runRounds T ws v) (T.k.getD ws.length 0) x := by
  rw [runRounds, zip_concat_getD h, List.foldl_concat, runRounds]

/-- The state after the first `r + 1` words is round `r` on the state after the first `r`. -/
theorem runRounds_take_succ {w r : Nat} {T : Params w} {ws : List (BitVec w)} (hk : r < T.k.length)
    (hw : r < ws.length) (v : Work w) :
    runRounds T (ws.take (r + 1)) v = roundStep T (runRounds T (ws.take r) v) (T.k.getD r 0) (ws.getD r 0) := by
  have hlen : (ws.take r).length = r := List.length_take_of_le hw.le
  rw [List.take_succ_eq_append_getElem hw, runRounds_concat (hlen.symm ▸ hk), hlen, List.getD_eq_getElem _ _ hw]

/-- The rounds over a schedule as long as the table of constants pass from state to state, each read once in order. -/
theorem exists_roundStates {w R : Nat} {T : Params w} {ws : List (BitVec w)} (hk : T.k.length = R)
    (hw : ws.length = R) (v : Work w) :
    ∃ f : Nat → Work w, f 0 = v ∧ f R = runRounds T ws v ∧
      ∀ r, r < R → f (r + 1) = roundStep T (f r) (T.k.getD r 0) (ws.getD r 0) := by
  refine ⟨fun r => runRounds T (ws.take r) v, ?_, ?_, fun r hr => ?_⟩
  · exact runRounds_nil T v
  · simp only [List.take_of_length_le hw.le]
  · exact runRounds_take_succ (hk ▸ hr) (hw ▸ hr) v

/-! ### The chaining state (43 R175, R176) -/

/-- The chaining state after one more block is the state before, compressed with that block. -/
theorem Datapath.run_concat_chain {w : Nat} (T : Params w) (blks : List (List Byte)) (blk : List Byte) :
    (Datapath.run T (blks ++ [blk])).chain = compress T (Datapath.run T blks).chain blk := by
  rw [run_chain, List.foldl_concat, run_chain]

end Sys2Proof.Machine

open Sys2Proof.Machine

/-- Settles O39: after `r` rounds the working variables are those of the rounds over the first `r` schedule words. -/
theorem roundsInOrder : Obligations.RoundsInOrder :=
  ⟨fun _ v hw => exists_roundStates length_k256 hw v, fun _ v hw => exists_roundStates length_k512 hw v⟩

/-- Settles O38: the sums grouped from the left are the model's own, and so are the round and the fold. -/
theorem roundAndFold : Obligations.RoundAndFold := fun _ _ _ _ _ _ => ⟨rfl, rfl⟩

/-- Settles O40: with no block the state is `IV`, and one more block compresses the state before. -/
theorem chainingAcrossBlocks : Obligations.ChainingAcrossBlocks := by
  refine fun w T blks blk => ⟨Datapath.run_chain T [], ?_⟩
  rintro c rfl
  exact Datapath.run_concat_chain T blks blk

end

section
/-! The digest serializer (44 R191 to R193): no two nibbles share a character, no two words a rendering, and no two
chaining states a text. -/

namespace Sys2Proof.Machine

theorem toNat_hexChar_of_lt {d : BitVec 4} (h : d.toNat < 10) : (hexChar d).toNat = 0x30 + d.toNat := by
  rw [hexChar, if_pos h, BitVec.toNat_ofNat]; omega

theorem toNat_hexChar_of_le {d : BitVec 4} (h : 10 ≤ d.toNat) : (hexChar d).toNat = 0x61 + (d.toNat - 10) := by
  rw [hexChar, if_neg (Nat.not_lt.mpr h), BitVec.toNat_ofNat]; omega

/-- The digits and the letters are apart, and each run is strictly rising. -/
theorem hexChar_injective : Function.Injective hexChar := by
  intro d e h
  have hcode : (hexChar d).toNat = (hexChar e).toNat := congrArg BitVec.toNat h
  apply BitVec.eq_of_toNat_eq
  rcases Nat.lt_or_ge d.toNat 10 with hd | hd <;> rcases Nat.lt_or_ge e.toNat 10 with he | he
  · rw [toNat_hexChar_of_lt hd, toNat_hexChar_of_lt he] at hcode; omega
  · rw [toNat_hexChar_of_lt hd, toNat_hexChar_of_le he] at hcode; omega
  · rw [toNat_hexChar_of_le hd, toNat_hexChar_of_lt he] at hcode; omega
  · rw [toNat_hexChar_of_le hd, toNat_hexChar_of_le he] at hcode; omega

/-- Bit `b` of a word is bit `b % 4` of the nibble that character `w/4 - 1 - b/4` renders, so the characters give every
bit. -/
theorem render_injective {w : Nat} (hw : 4 ∣ w) : Function.Injective (render (w := w)) := by
  intro x y h
  apply BitVec.eq_of_getLsbD_eq
  intro b hb
  have hchar : hexChar (x.extractLsb' (w - 4 - 4 * (w / 4 - 1 - b / 4)) 4) =
      hexChar (y.extractLsb' (w - 4 - 4 * (w / 4 - 1 - b / 4)) 4) :=
    List.map_inj_left.mp h _ (List.mem_range.mpr (by omega))
  have hpos : w - 4 - 4 * (w / 4 - 1 - b / 4) = 4 * (b / 4) := by omega
  have hbit := congrArg (BitVec.getLsbD · (b % 4)) (hexChar_injective hchar)
  have hlt : b % 4 < 4 := Nat.mod_lt b (by decide)
  simpa [hpos, hlt, Nat.div_add_mod] using hbit

/-- Renderings of one width are equally long, so the rendered words can be told apart. -/
theorem eq_of_flatMap_render_eq {w : Nat} (hw : 4 ∣ w) {xs ys : List (BitVec w)} (hlen : xs.length = ys.length)
    (h : xs.flatMap render = ys.flatMap render) : xs = ys := by
  induction xs generalizing ys with
  | nil => exact (List.length_eq_zero_iff.mp hlen.symm).symm
  | cons x xs ih =>
    cases ys with
    | nil => cases hlen
    | cons y ys =>
      rw [List.flatMap_cons, List.flatMap_cons] at h
      obtain ⟨hx, hxs⟩ := List.append_inj h (by rw [length_render, length_render])
      rw [render_injective hw hx, ih (Nat.succ.inj hlen) hxs]

theorem Chain.words_injective {w : Nat} : Function.Injective (Chain.words (w := w)) := by
  intro c d h
  cases c
  cases d
  simpa [Chain.words] using h

theorem Chain.text_injective {w : Nat} (hw : 4 ∣ w) : Function.Injective (Chain.text (w := w)) := by
  intro c d h
  rw [c.text_eq_flatMap, d.text_eq_flatMap] at h
  exact Chain.words_injective (eq_of_flatMap_render_eq hw rfl h)

end Sys2Proof.Machine

open Sys2Proof.Machine

/-- Settles O45: each run of characters starts at its code, and the two do not meet. -/
theorem hexCharacters : Obligations.HexCharacters :=
  ⟨fun _ => toNat_hexChar_of_lt, fun _ => toNat_hexChar_of_le, fun _ _ h => hexChar_injective h⟩

/-- Settles O47: both word widths are a whole number of nibbles. -/
theorem digestTextDeterminesState : Obligations.DigestTextDeterminesState :=
  ⟨fun _ _ h => Chain.text_injective (by decide) h, fun _ _ h => Chain.text_injective (by decide) h⟩

end

section
/-! The checks of a HASH command (45 R215 steps 2 to 8): when each passes, what each reports when it fails (60 R241) and
the outcome that the first failing one gives the command. -/

namespace Sys2Proof.Machine

/-! ### The bytes the bus rejects (20 R37) -/

theorem Platform.leastRejected_eq_none_iff_not_exists {p : Platform} {base len : Nat} {dir : Dir} :
    p.leastRejected base len dir = none ↔ ¬∃ x, x < len ∧ p.admits (base + x) dir = false := by
  simp [Platform.leastRejected_eq_none]

/-- What a region's bus check reports: the least rejected byte, whose address is a word because the region does not
wrap. -/
theorem busError_of_rejected {p : Platform} {base len : Nat} {dir : Dir} (hfits : base + len ≤ 2 ^ 64)
    (h : ∃ x, x < len ∧ p.admits (base + x) dir = false) :
    ∃ info : Word64,
      (p.leastRejected base len dir).map (fun a => ErrorReport.mk .busError (BitVec.ofNat 64 a)) =
        some ⟨.busError, info⟩ ∧
      ∃ x, x < len ∧ info.toNat = base + x ∧ p.admits (base + x) dir = false ∧
        ∀ y, y < x → p.admits (base + y) dir = true := by
  cases hleast : p.leastRejected base len dir with
  | none => exact absurd h (Platform.leastRejected_eq_none_iff_not_exists.mp hleast)
  | some a =>
    obtain ⟨x, hx, rfl, hrej, hmin⟩ := Platform.leastRejected_eq_some hleast
    exact ⟨_, rfl, x, hx, Nat.mod_eq_of_lt (by omega), hrej, hmin⟩

/-! ### When each check passes, and what it reports (45 R215, 60 R241) -/

theorem wraps_eq_true {base len : Nat} : wraps base len = true ↔ 0 < len ∧ 2 ^ 64 < base + len := by
  simp [wraps]

theorem checkLength_eq_none {v : Variant} {S : Snapshot} :
    checkLength v S = none ↔ ¬2 ^ lengthBits v ≤ 8 * S.msgLen.toNat := by
  rw [checkLength, bitLength, ite_eq_right_iff]
  simp only [reduceCtorEq, imp_false]

theorem checkCapacity_eq_none {p : Platform} {v : Variant} {S : Snapshot} :
    checkCapacity p v S = none ↔ ¬∃ c, p.padCapacity = some c ∧ c < paddedLength v S.msgLen.toNat := by
  cases hc : p.padCapacity <;> simp [checkCapacity, hc]

theorem checkCapacity_of_lt {p : Platform} {v : Variant} {S : Snapshot}
    (h : ∃ c, p.padCapacity = some c ∧ c < paddedLength v S.msgLen.toNat) :
    checkCapacity p v S = some ⟨.allocationFailure, S.msgLen⟩ := by
  obtain ⟨c, hc, hlt⟩ := h
  simp [checkCapacity, hc, hlt]

theorem checkMsgWrap_eq_none {S : Snapshot} :
    checkMsgWrap S = none ↔ ¬(0 < S.msgLen.toNat ∧ 2 ^ 64 < S.msgBase.toNat + S.msgLen.toNat) := by
  rw [← wraps_eq_true]
  simp [checkMsgWrap]

theorem checkMsgWrap_of_wraps {S : Snapshot}
    (h : 0 < S.msgLen.toNat ∧ 2 ^ 64 < S.msgBase.toNat + S.msgLen.toNat) :
    checkMsgWrap S = some ⟨.msgRegionWrap, S.msgBase⟩ := by
  rw [checkMsgWrap, if_pos (wraps_eq_true.mpr h)]

theorem checkMsgBus_eq_none {p : Platform} {S : Snapshot} :
    checkMsgBus p S = none ↔ ¬∃ x, x < S.msgLen.toNat ∧ p.admits (S.msgBase.toNat + x) .read = false := by
  rw [checkMsgBus, Option.map_eq_none_iff, Platform.leastRejected_eq_none_iff_not_exists]

theorem checkOutCap_eq_none {v : Variant} {term : Bool} {S : Snapshot} :
    checkOutCap v term S = none ↔ ¬S.outCap.toNat < need v term := by
  simp [checkOutCap]

theorem checkOutCap_of_lt {v : Variant} {term : Bool} {S : Snapshot} (h : S.outCap.toNat < need v term) :
    checkOutCap v term S = some ⟨.bufferTooSmall, BitVec.ofNat 64 (need v term)⟩ := by
  rw [checkOutCap, if_pos h]

theorem toNat_ofNat_need (v : Variant) (term : Bool) : (BitVec.ofNat 64 (need v term)).toNat = need v term := by
  cases v <;> cases term <;> decide

theorem checkOutWrap_eq_none {v : Variant} {term : Bool} {S : Snapshot} :
    checkOutWrap v term S = none ↔ ¬2 ^ 64 < S.outBase.toNat + need v term := by
  simp [checkOutWrap, wraps_eq_true, need_pos]

theorem checkOutWrap_of_wraps {v : Variant} {term : Bool} {S : Snapshot}
    (h : 2 ^ 64 < S.outBase.toNat + need v term) : checkOutWrap v term S = some ⟨.outRegionWrap, S.outBase⟩ := by
  rw [checkOutWrap, if_pos (wraps_eq_true.mpr ⟨need_pos v term, h⟩)]

theorem checkOutBus_eq_none {p : Platform} {v : Variant} {term : Bool} {S : Snapshot} :
    checkOutBus p v term S = none ↔ ¬∃ x, x < need v term ∧ p.admits (S.outBase.toNat + x) .write = false := by
  rw [checkOutBus, Option.map_eq_none_iff, Platform.leastRejected_eq_none_iff_not_exists]

/-- With steps 2 to 5 passed, the checks left are those of the output. -/
theorem firstError_of_messagePasses {p : Platform} {v : Variant} {S : Snapshot}
    (hlength : ¬2 ^ lengthBits v ≤ 8 * S.msgLen.toNat)
    (hcapacity : ¬∃ c, p.padCapacity = some c ∧ c < paddedLength v S.msgLen.toNat)
    (hmsgWrap : ¬(0 < S.msgLen.toNat ∧ 2 ^ 64 < S.msgBase.toNat + S.msgLen.toNat))
    (hmsgBus : ¬∃ x, x < S.msgLen.toNat ∧ p.admits (S.msgBase.toNat + x) .read = false) (term : Bool) :
    firstError p v term S = (checkOutCap v term S).or ((checkOutWrap v term S).or (checkOutBus p v term S)) := by
  rw [firstError_eq_or, checkLength_eq_none.mpr hlength, checkCapacity_eq_none.mpr hcapacity,
    checkMsgWrap_eq_none.mpr hmsgWrap, checkMsgBus_eq_none.mpr hmsgBus]
  rfl

/-! ### The outcome of a command that no host raced (45 R214) -/

theorem runHash_reports_error {v : Variant} {term : Bool} {s : State} {e : ErrorReport} (hraced : s.raced = false)
    (he : firstError s.platform v term s.snap = some e) :
    (runHash v term s).status.err = e.code ∧ (runHash v term s).errInfo = e.info := by
  rw [runHash_of_error hraced he]
  exact ⟨rfl, rfl⟩

theorem runHash_reports_none {v : Variant} {term : Bool} {s : State} (hraced : s.raced = false)
    (he : firstError s.platform v term s.snap = none) :
    (runHash v term s).status.err = .none ∧ (runHash v term s).errInfo = 0 := by
  rw [runHash_of_checksPass hraced (firstError_eq_none.mp he)]
  exact ⟨rfl, rfl⟩

/-- A command that ends with an error has written nothing (44 R197). -/
theorem runHash_mem_of_err {v : Variant} {term : Bool} {s : State} (hraced : s.raced = false)
    (herr : (runHash v term s).status.err ≠ .none) : (runHash v term s).mem = s.mem := by
  cases he : firstError s.platform v term s.snap with
  | some e => rw [runHash_of_error hraced he, State.raiseError_mem]
  | none => exact absurd (runHash_reports_none hraced he).1 herr

end Sys2Proof.Machine

open Sys2Proof Sys2Proof.Machine

/-- Settles O26: only a command whose checks all pass writes, and it ends with NONE. -/
theorem failedCommandWritesNothing : Obligations.FailedCommandWritesNothing :=
  ⟨fun i s hraced => ⟨_, exec_eq i s, runHash_mem_of_err hraced⟩, fun _ => ⟨rfl, rfl⟩⟩

/-- Settles O25: with the checks before it passed, a failing check is the first error. -/
theorem firstFailingStepReported : Obligations.FirstFailingStepReported := by
  refine ⟨by decide, fun i s hraced => ⟨_, exec_eq i s, ?_, ?_, ?_, ?_, ?_, ?_, ?_, ?_⟩⟩
  · intro hlength
    exact runHash_reports_error hraced (firstError_of_tooLong hlength _ _)
  · intro hlength hcapacity
    refine runHash_reports_error (e := ⟨.allocationFailure, s.snap.msgLen⟩) hraced ?_
    rw [firstError_eq_or, checkLength_eq_none.mpr hlength, checkCapacity_of_lt hcapacity]; rfl
  · intro hlength hcapacity hmsgWrap
    refine runHash_reports_error (e := ⟨.msgRegionWrap, s.snap.msgBase⟩) hraced ?_
    rw [firstError_eq_or, checkLength_eq_none.mpr hlength, checkCapacity_eq_none.mpr hcapacity,
      checkMsgWrap_of_wraps hmsgWrap]; rfl
  · intro hlength hcapacity hmsgWrap hmsgBus
    obtain ⟨info, hreport, hleast⟩ := busError_of_rejected (by omega) hmsgBus
    have hfirst : firstError s.platform i.variant i.term s.snap = some ⟨.busError, info⟩ := by
      rw [firstError_eq_or, checkLength_eq_none.mpr hlength, checkCapacity_eq_none.mpr hcapacity,
        checkMsgWrap_eq_none.mpr hmsgWrap, checkMsgBus, hreport]; rfl
    obtain ⟨hcode, hinfo⟩ := runHash_reports_error hraced hfirst
    exact ⟨hcode, hinfo ▸ hleast⟩
  · intro hlength hcapacity hmsgWrap hmsgBus houtCap
    have hfirst : firstError s.platform i.variant i.term s.snap =
        some ⟨.bufferTooSmall, BitVec.ofNat 64 (need i.variant i.term)⟩ := by
      rw [firstError_of_messagePasses hlength hcapacity hmsgWrap hmsgBus, checkOutCap_of_lt houtCap]; rfl
    obtain ⟨hcode, hinfo⟩ := runHash_reports_error hraced hfirst
    exact ⟨hcode, hinfo ▸ toNat_ofNat_need i.variant i.term⟩
  · intro hlength hcapacity hmsgWrap hmsgBus houtCap houtWrap
    refine runHash_reports_error (e := ⟨.outRegionWrap, s.snap.outBase⟩) hraced ?_
    rw [firstError_of_messagePasses hlength hcapacity hmsgWrap hmsgBus, checkOutCap_eq_none.mpr houtCap,
      checkOutWrap_of_wraps houtWrap]; rfl
  · intro hlength hcapacity hmsgWrap hmsgBus houtCap houtWrap houtBus
    obtain ⟨info, hreport, hleast⟩ := busError_of_rejected (Nat.not_lt.mp houtWrap) houtBus
    have hfirst : firstError s.platform i.variant i.term s.snap = some ⟨.busError, info⟩ := by
      rw [firstError_of_messagePasses hlength hcapacity hmsgWrap hmsgBus, checkOutCap_eq_none.mpr houtCap,
        checkOutWrap_eq_none.mpr houtWrap, checkOutBus, hreport]; rfl
    obtain ⟨hcode, hinfo⟩ := runHash_reports_error hraced hfirst
    exact ⟨hcode, hinfo ▸ hleast⟩
  · intro hlength hcapacity hmsgWrap hmsgBus houtCap houtWrap houtBus
    refine runHash_reports_none hraced ?_
    rw [firstError_of_messagePasses hlength hcapacity hmsgWrap hmsgBus, checkOutCap_eq_none.mpr houtCap,
      checkOutWrap_eq_none.mpr houtWrap, checkOutBus_eq_none.mpr houtBus]; rfl

end

section
/-! The engine's turn and the command it completes (45 R210 to R218): the turn taken from the queue, legal and illegal
words, CMD writes, what a command whose checks pass writes, and how the queue bounds a command's run. -/

namespace Sys2Proof.Machine

/-! ### The outcome of one move (45 R210) -/

/-- A move has a next state, or it is one that the register port refuses. -/
theorem takeInput_cases (x : Input) (s : State) :
    (∃ t, takeInput x s = .next t) ∨ (¬moveAccepted s.platform x ∧ ∃ r, takeInput x s = .refused r) := by
  cases x with
  | regRead addr width =>
    rw [takeInput, hostRegRead, moveAccepted]
    cases regSlot s.platform addr width with
    | ok r => exact .inl ⟨_, rfl⟩
    | error e => exact .inr ⟨nofun, e, rfl⟩
  | regWrite addr width v =>
    rw [takeInput, hostRegWrite, moveAccepted]
    cases regSlot s.platform addr width with
    | ok r => exact .inl ⟨_, rfl⟩
    | error e => exact .inr ⟨nofun, e, rfl⟩
  | dataRead addr => exact .inl ⟨_, rfl⟩
  | dataWrite addr v => exact .inl ⟨_, rfl⟩
  | engine =>
    rcases engineTurn_cases s with ⟨-, h⟩ | ⟨-, _, -, h⟩ | ⟨-, _, -, h⟩ <;> exact .inl ⟨_, h⟩
  | reset => exact .inl ⟨_, rfl⟩

theorem exists_engineTurn_eq_next (s : State) : ∃ t, engineTurn s = .next t :=
  (takeInput_cases .engine s).resolve_right fun ⟨hrefused, _⟩ => hrefused trivial

theorem takeInput_ne_fault (x : Input) (s : State) (f : Fault) : takeInput x s ≠ .fault f := by
  obtain ⟨t, h⟩ | ⟨-, r, h⟩ := takeInput_cases x s <;> rw [h] <;> exact nofun

/-! ### The engine's turn, taken from the queue (45 R210, log 2) -/

/-- When the engine moves next, the step is its turn with its move taken from the queue. -/
theorem step_engineTurn {s : State} {rest : List Input}
    (h : (s.inputs = [] ∧ rest = []) ∨ s.inputs = .engine :: rest) : step s = engineTurn (s.withInputs rest) := by
  obtain ⟨hi, rfl⟩ | hi := h
  · have hself : s.withInputs [] = s := by rw [← hi]; rfl
    rw [step_of_nil hi, hself]
  · exact step_of_cons hi

theorem exists_rest_of_engineNext {s : State} (h : s.engineNext = true) :
    ∃ rest, (s.inputs = [] ∧ rest = []) ∨ s.inputs = .engine :: rest := by
  cases hi : s.inputs with
  | nil => exact ⟨[], .inl ⟨rfl, rfl⟩⟩
  | cons x rest =>
    rw [State.engineNext, hi] at h
    obtain rfl : x = .engine := by simpa using h
    exact ⟨rest, .inr rfl⟩

/-- The turn on a legal word is the command's meaning (45 R214). -/
theorem engineTurn_of_legal {s : State} {i : Instr} (hb : s.status.busy = true) (hd : decode s.snap.cmd = .ok i) :
    engineTurn s = exec i s := by
  rw [engineTurn, if_pos hb, hd]

/-- The turn on an illegal word is its completion with ILLEGAL_COMMAND (45 R218). -/
theorem engineTurn_of_illegal {s : State} {e : DecodeError} (hb : s.status.busy = true)
    (hd : decode s.snap.cmd = .error e) : engineTurn s = .next (illegalCommand s) := by
  rw [engineTurn, if_pos hb, hd]

theorem illegalCommand_keeps (s : State) : KeepsRegisters s (illegalCommand s) := by constructor <;> rfl

/-- A word is legal exactly when its two checked fields are as 45 R213 says. -/
theorem exists_decode_eq_ok_iff_fields {v : Word64} :
    (∃ i, decode v = .ok i) ↔ v.extractLsb' 0 8 = 0x01 ∧ v.extractLsb' 10 54 = 0 :=
  exists_decode_eq_ok_iff.trans (CommandWord.ofBits v).wellFormed_iff

theorem exists_decode_eq_error {v : Word64} (h : v.extractLsb' 0 8 ≠ 0x01 ∨ v.extractLsb' 10 54 ≠ 0) :
    ∃ e, decode v = .error e := by
  cases hd : decode v with
  | ok i =>
    obtain ⟨hopc, hrsv⟩ := exists_decode_eq_ok_iff_fields.mp ⟨i, hd⟩
    exact absurd hrsv (h.resolve_left (· hopc))
  | error e => exact ⟨e, rfl⟩

/-! ### CMD writes (45 R211, R212) -/

/-- A whole write at REG_BASE is a CMD write. -/
theorem step_cmdWrite {s : State} {v : Word64} {rest : List Input}
    (hi : s.inputs = .regWrite s.platform.regBase 64 v :: rest) :
    step s = .next ((s.withInputs rest).writeCmd v) :=
  step_regWrite (off := 0) (by simpa using hi) (by decide) (by decide)

/-! ### A command whose checks all pass and that no host raced (45 R214 to R217) -/

section
variable {v : Variant} {term : Bool} {s : State} (hraced : s.raced = false) (hpass : ChecksPass v term s)
include hraced hpass

theorem runHash_status_of_checksPass :
    (runHash v term s).status = { busy := false, done := true, ovr := s.status.ovr, err := .none } := by
  rw [runHash_of_checksPass hraced hpass]; rfl

theorem runHash_errInfo_of_checksPass : (runHash v term s).errInfo = 0 := by
  rw [runHash_of_checksPass hraced hpass]; rfl

/-- The digest's characters stand first in the output (44 R194). -/
theorem runHash_read_digest (hm : s.mem.wf) {j : Nat} (hj : j < digestLength v) :
    (runHash v term s).mem.read (s.snap.outBase.toNat + j) = (digestText v s.message).getD j 0 := by
  have hneed : j < need v term := Nat.lt_add_right _ hj
  rw [runHash_read_output hm hraced hpass hneed, List.getD_append _ _ _ _ (by rwa [length_digestText])]

end

/-- A command with TERM = 1 writes a 0x00 after the digest's characters (44 R194). -/
theorem runHash_read_terminator {v : Variant} {s : State} (hraced : s.raced = false) (hpass : ChecksPass v true s)
    (hm : s.mem.wf) : (runHash v true s).mem.read (s.snap.outBase.toNat + digestLength v) = 0x00 := by
  have hneed : digestLength v < need v true := Nat.lt_succ_self _
  rw [runHash_read_output hm hraced hpass hneed, ← length_digestText v s.message,
    List.getD_append_right _ _ _ _ le_rfl, Nat.sub_self]
  rfl

/-! ### The queue and the platform across a step (logs 2 and 4) -/

theorem engineTurn_keeps_queue {s t : State} (h : engineTurn s = .next t) :
    t.inputs = s.inputs ∧ t.platform = s.platform := by
  rcases engineTurn_eq_next h with ⟨-, rfl⟩ | ⟨-, -, -, hkeeps⟩
  · exact ⟨rfl, rfl⟩
  · exact ⟨hkeeps.inputs, hkeeps.platform⟩

theorem writeReg_keeps_queue (r : HostReg) (v : Word64) (s : State) :
    (s.writeReg r v).inputs = s.inputs ∧ (s.writeReg r v).platform = s.platform := by
  rcases writeReg_cases r v s with ⟨-, -, h⟩ | ⟨-, -, h⟩ | ⟨-, h⟩ | ⟨-, h⟩ | ⟨-, h⟩ | ⟨-, h⟩ | ⟨-, h⟩ <;> rw [h] <;>
    exact ⟨rfl, rfl⟩

theorem hostDataRead_keeps_queue (addr : Word64) (s : State) :
    (hostDataRead addr s).inputs = s.inputs ∧ (hostDataRead addr s).platform = s.platform := by
  obtain ⟨-, -, h⟩ | ⟨-, h⟩ := hostDataRead_cases addr s <;> rw [h] <;> exact ⟨rfl, rfl⟩

theorem hostDataWrite_keeps_queue (addr : Word64) (v : Byte) (s : State) :
    (hostDataWrite addr v s).inputs = s.inputs ∧ (hostDataWrite addr v s).platform = s.platform := by
  obtain ⟨-, -, h⟩ | ⟨-, h⟩ := hostDataWrite_cases addr v s <;> rw [h] <;> exact ⟨rfl, rfl⟩

/-- A step takes one move from the queue, if there is one, and leaves the platform as it was. -/
theorem step_inputs_platform {s t : State} (h : step s = .next t) :
    t.inputs = s.inputs.tail ∧ t.platform = s.platform := by
  rcases step_cases h with ⟨hi, he⟩ | ⟨x, rest, hi, hx⟩
  · rw [(engineTurn_keeps_queue he).1, hi]
    exact ⟨rfl, (engineTurn_keeps_queue he).2⟩
  rw [hi, List.tail_cons]
  rcases hx with ⟨-, he⟩ | ⟨_, _, _, -, -, rfl⟩ | ⟨_, _, v, r, -, -, rfl⟩ | ⟨addr, -, rfl⟩ | ⟨addr, v, -, rfl⟩ |
    ⟨-, rfl⟩
  · exact engineTurn_keeps_queue he
  · exact ⟨rfl, rfl⟩
  · exact writeReg_keeps_queue r v (s.withInputs rest)
  · exact hostDataRead_keeps_queue addr (s.withInputs rest)
  · exact hostDataWrite_keeps_queue addr v (s.withInputs rest)
  · obtain ⟨-, -, -, -, -, -, -, hplat, -, hinputs⟩ := resetEngine_rest (s.withInputs rest)
    exact ⟨hinputs, hplat⟩

/-- A queue of accepted moves bounds the running command: each step ends it or shortens the queue, and with no move left
the engine has the turn. -/
theorem exists_runSteps_idle {xs : List Input} {s : State} (hi : s.inputs = xs) (hb : s.status.busy = true)
    (hacc : ∀ x ∈ xs, moveAccepted s.platform x) :
    ∃ k t, k ≤ xs.length + 1 ∧ runSteps k s = .next t ∧ t.status.busy = false := by
  induction xs generalizing s with
  | nil =>
    obtain ⟨t, ht, hidle, -⟩ := engineTurn_of_busy hb
    exact ⟨1, t, le_rfl, runSteps_succ ((step_of_nil hi).trans ht) 0, hidle⟩
  | cons x rest ih =>
    obtain ⟨t, hmove⟩ : ∃ t, takeInput x (s.withInputs rest) = .next t :=
      (takeInput_cases x (s.withInputs rest)).resolve_right fun ⟨hrefused, _⟩ => hrefused (hacc x List.mem_cons_self)
    have hstep : step s = .next t := (step_of_cons hi).trans hmove
    cases hb' : t.status.busy with
    | false => exact ⟨1, t, by omega, runSteps_succ hstep 0, hb'⟩
    | true =>
      obtain ⟨hinputs, hplat⟩ := step_inputs_platform hstep
      rw [hi, List.tail_cons] at hinputs
      obtain ⟨k, u, hk, hrun, hidle⟩ := ih hinputs hb' fun y hy => hplat ▸ hacc y (List.mem_cons_of_mem x hy)
      exact ⟨k + 1, u, Nat.succ_le_succ hk, (runSteps_succ hstep k).trans hrun, hidle⟩

end Sys2Proof.Machine

open Sys2Proof Sys2Proof.Machine

/-- Settles O2: the decoder's two checks are on the fields of R213, and a command's word is the only one that decodes
to it. -/
theorem legalIffOpcodeAndReserved : Obligations.LegalIffOpcodeAndReserved := by
  intro v
  obtain ⟨-, -, hfields, -⟩ := fourLegalCommandWords
  refine ⟨exists_decode_eq_ok_iff_fields, hfields v, fun i h => ?_⟩
  obtain rfl := decode_eq_ok_iff_eq_encode.mp h
  cases i <;> decide

/-- Settles O7: the register port's refusals are the only outcomes without a next state. -/
theorem engineNeverStops : Obligations.EngineNeverStops := by
  refine ⟨fun s hnext => ?_, fun s f => ?_⟩
  · obtain ⟨rest, h⟩ := exists_rest_of_engineNext hnext
    rw [step_engineTurn h]
    exact exists_engineTurn_eq_next _
  · cases hi : s.inputs with
    | nil => rw [step_of_nil hi]; exact takeInput_ne_fault .engine s f
    | cons x rest => rw [step_of_cons hi]; exact takeInput_ne_fault x _ f

/-- Settles O8: such a word decodes to no command, so the turn raises ILLEGAL_COMMAND. -/
theorem illegalWordCompletes : Obligations.IllegalWordCompletes := by
  intro s rest hturn hb hillegal
  obtain ⟨e, hd⟩ := exists_decode_eq_error hillegal
  have hstep : step s = .next (illegalCommand (s.withInputs rest)) :=
    (step_engineTurn hturn).trans (engineTurn_of_illegal hb hd)
  exact ⟨_, hstep, rfl, rfl, rfl, illegalCommand_keeps _⟩

/-- Settles O20, with an output of 64 digest characters. -/
theorem hash256WritesDigest : Obligations.Hash256WritesDigest := fun s hm hraced hpass =>
  ⟨_, exec_eq .hash256 s, runHash_status_of_checksPass hraced hpass, runHash_errInfo_of_checksPass hraced hpass,
    fun _ hj => runHash_read_digest hraced hpass hm hj, fun _ ha => runHash_read_other ha⟩

/-- Settles O21, with an output of 64 digest characters and a terminator. -/
theorem hash256tWritesDigestAndTerminator : Obligations.Hash256tWritesDigestAndTerminator := fun s hm hraced hpass =>
  ⟨_, exec_eq .hash256t s, runHash_status_of_checksPass hraced hpass, runHash_errInfo_of_checksPass hraced hpass,
    fun _ hj => runHash_read_digest hraced hpass hm hj, runHash_read_terminator hraced hpass hm,
    fun _ ha => runHash_read_other ha⟩

/-- Settles O22, with an output of 128 digest characters. -/
theorem hash512WritesDigest : Obligations.Hash512WritesDigest := fun s hm hraced hpass =>
  ⟨_, exec_eq .hash512 s, runHash_status_of_checksPass hraced hpass, runHash_errInfo_of_checksPass hraced hpass,
    fun _ hj => runHash_read_digest hraced hpass hm hj, fun _ ha => runHash_read_other ha⟩

/-- Settles O23, with an output of 128 digest characters and a terminator. -/
theorem hash512tWritesDigestAndTerminator : Obligations.Hash512tWritesDigestAndTerminator := fun s hm hraced hpass =>
  ⟨_, exec_eq .hash512t s, runHash_status_of_checksPass hraced hpass, runHash_errInfo_of_checksPass hraced hpass,
    fun _ hj => runHash_read_digest hraced hpass hm hj, runHash_read_terminator hraced hpass hm,
    fun _ ha => runHash_read_other ha⟩

/-- Settles O24: each of the three ways a command completes has the frame. -/
theorem commandFrame : Obligations.CommandFrame := fun i s =>
  have ⟨hidle, hdone⟩ := runHash_busy_done i.variant i.term s
  ⟨_, exec_eq i s, hidle, hdone, runHash_keeps i.variant i.term s, fun _ ha => runHash_read_other ha⟩

/-- Settles O59, by induction on the queue. -/
theorem everyCommandEnds : Obligations.EveryCommandEnds := fun _ hb hacc => exists_runSteps_idle rfl hb hacc

/-- Settles O5: the step is the engine's turn, and the turn on a legal word is its command's meaning. -/
theorem stepRunsDecodedCommand : Obligations.StepRunsDecodedCommand := fun _ _ _ hturn hb hd =>
  (step_engineTurn hturn).trans (engineTurn_of_legal hb hd)

/-- Settles O9: while BUSY = 1 a CMD write is an overrun. -/
theorem busyCmdWriteDropped : Obligations.BusyCmdWriteDropped := by
  intro s v rest hi hb
  rw [step_cmdWrite hi, State.writeCmd, State.withInputs_status, if_pos hb]; rfl

/-- Settles O10: while BUSY = 0 a CMD write is an acceptance, and a command reads and writes nothing of the host's side
of the state. -/
theorem idleCmdWriteAccepted : Obligations.IdleCmdWriteAccepted := by
  refine ⟨fun s v rest hi hb => ?_, fun i s a n o c => ⟨_, exec_eq i s, ?_⟩⟩
  · rw [step_cmdWrite hi, State.writeCmd, State.withInputs_status, if_neg (by simp [hb])]; rfl
  · have hinputs := (runHash_keeps i.variant i.term s).inputs
    have hrun : runHash i.variant i.term (s.withHostSide a n o c s.inputs) =
        (runHash i.variant i.term s).withHostSide a n o c (runHash i.variant i.term s).inputs := by
      rw [runHash_withHostSide, hinputs]
    rw [exec_eq]
    exact congrArg _ hrun

end

section
/-! The outcome of a command and the record of a race, across one step (60 R245, R248, R254; 70 R275): an idle engine's
turn, what a step from an idle state leaves of STATUS and ERR_INFO, and what any step does to the HostRace mark. -/

namespace Sys2Proof.Machine

/-- While BUSY = 0 the engine's turn does nothing (60 R254). -/
theorem engineTurn_of_idle {s : State} (hb : s.status.busy = false) : engineTurn s = .next s := by
  rw [engineTurn, if_neg (by simp [hb])]

/-! ### STATUS and ERR_INFO while no command runs (60 R245) -/

@[simp] theorem hostDataRead_errInfo (addr : Word64) (s : State) : (hostDataRead addr s).errInfo = s.errInfo := by
  obtain ⟨-, -, h⟩ | ⟨-, h⟩ := hostDataRead_cases addr s <;> rw [h] <;> rfl

@[simp] theorem hostDataWrite_errInfo (addr : Word64) (v : Byte) (s : State) :
    (hostDataWrite addr v s).errInfo = s.errInfo := by
  obtain ⟨-, -, h⟩ | ⟨-, h⟩ := hostDataWrite_cases addr v s <;> rw [h] <;> rfl

/-- A register write to an idle engine changes STATUS or ERR_INFO only by an acceptance. -/
theorem writeReg_of_idle {s : State} (hb : s.status.busy = false) (r : HostReg) (v : Word64) :
    ((s.writeReg r v).status = s.status ∧ (s.writeReg r v).errInfo = s.errInfo) ∨
      (r = .cmd ∧ s.writeReg r v = s.accept v) := by
  rcases writeReg_cases r v s with ⟨-, hbusy, -⟩ | ⟨hr, -, h⟩ | ⟨-, h⟩ | ⟨-, h⟩ | ⟨-, h⟩ | ⟨-, h⟩ | ⟨-, h⟩
  · rw [hb] at hbusy; cases hbusy
  · exact .inr ⟨hr, h⟩
  all_goals exact .inl (by rw [h]; exact ⟨rfl, rfl⟩)

/-- A step of an idle engine keeps STATUS and ERR_INFO, or is a reset, or accepts a command word. -/
theorem step_of_idle {s t : State} (h : step s = .next t) (hb : s.status.busy = false) :
    (t.status = s.status ∧ t.errInfo = s.errInfo) ∨
    (∃ rest, s.inputs = .reset :: rest) ∨
    ∃ v rest, s.inputs = .regWrite s.platform.regBase 64 v :: rest ∧ t = (s.withInputs rest).accept v := by
  rcases step_cases h with ⟨-, he⟩ | ⟨x, rest, hi, hx⟩
  · rw [engineTurn_of_idle hb] at he
    cases he
    exact .inl ⟨rfl, rfl⟩
  rcases hx with ⟨-, he⟩ | ⟨_, _, _, -, -, rfl⟩ | ⟨addr, width, v, r, rfl, hr, rfl⟩ | ⟨addr, -, rfl⟩ |
    ⟨addr, v, -, rfl⟩ | ⟨rfl, -⟩
  · rw [engineTurn_of_idle (s := s.withInputs rest) hb] at he
    cases he
    exact .inl ⟨rfl, rfl⟩
  · exact .inl ⟨rfl, rfl⟩
  · rcases writeReg_of_idle (s := s.withInputs rest) hb r v with hkept | ⟨rfl, haccept⟩
    · exact .inl hkept
    · obtain ⟨rfl, rfl⟩ := addr_of_regSlot_cmd hr
      exact .inr (.inr ⟨v, rest, hi, haccept⟩)
  · exact .inl ⟨by simp, by simp⟩
  · exact .inl ⟨by simp, by simp⟩
  · exact .inr (.inl ⟨rest, hi⟩)

/-! ### The HostRace mark (60 R248, 70 R270, R275) -/

theorem engineTurn_recorded {s t : State} (h : engineTurn s = .next t) : t.recorded = s.recorded := by
  rcases engineTurn_eq_next h with ⟨-, rfl⟩ | ⟨-, -, -, hkeeps⟩
  · rfl
  · exact hkeeps.recorded

@[simp] theorem writeReg_recorded (r : HostReg) (v : Word64) (s : State) :
    (s.writeReg r v).recorded = s.recorded := by
  rcases writeReg_cases r v s with ⟨-, -, h⟩ | ⟨-, -, h⟩ | ⟨-, h⟩ | ⟨-, h⟩ | ⟨-, h⟩ | ⟨-, h⟩ | ⟨-, h⟩ <;> rw [h] <;> rfl

@[simp] theorem hostDataRead_recorded (addr : Word64) (s : State) :
    (hostDataRead addr s).recorded = s.recorded := by
  obtain ⟨-, -, h⟩ | ⟨-, h⟩ := hostDataRead_cases addr s <;> rw [h] <;> rfl

@[simp] theorem resetEngine_recorded (s : State) : (resetEngine s).recorded = s.recorded := by
  obtain ⟨-, -, -, -, -, -, hrec, -⟩ := resetEngine_rest s
  exact hrec

/-- A data write leaves the mark alone or sets it. -/
theorem hostDataWrite_recorded (addr : Word64) (v : Byte) (s : State) :
    (hostDataWrite addr v s).recorded = s.recorded ∨ (hostDataWrite addr v s).recorded = some .hostRace := by
  obtain ⟨-, -, h⟩ | ⟨-, h⟩ := hostDataWrite_cases addr v s <;> rw [h]
  · exact .inr rfl
  · exact .inl rfl

/-- A step leaves the mark alone or sets it, whoever moves. -/
theorem step_recorded {s t : State} (h : step s = .next t) :
    t.recorded = s.recorded ∨ t.recorded = some .hostRace := by
  rcases step_cases h with ⟨-, he⟩ | ⟨x, rest, -, hx⟩
  · exact .inl (engineTurn_recorded he)
  rcases hx with ⟨-, he⟩ | ⟨_, _, _, -, -, rfl⟩ | ⟨_, _, v, r, -, -, rfl⟩ | ⟨addr, -, rfl⟩ | ⟨addr, v, -, rfl⟩ |
    ⟨-, rfl⟩
  · exact .inl (engineTurn_recorded (s := s.withInputs rest) he)
  · exact .inl rfl
  · exact .inl (by simp)
  · exact .inl (by simp)
  · exact hostDataWrite_recorded addr v (s.withInputs rest)
  · exact .inl (by simp)

end Sys2Proof.Machine

open Sys2Proof Sys2Proof.Machine

/-- Settles O55: the outcome stands in STATUS and ERR_INFO, and an acceptance sets BUSY. -/
theorem outcomeKeptUntilNextCommand : Obligations.OutcomeKeptUntilNextCommand := by
  intro s t h hb
  rcases step_of_idle h hb with ⟨hstatus, hinfo⟩ | hreset | ⟨v, rest, hi, rfl⟩
  · exact .inl ⟨by rw [hstatus], hinfo, by rw [hstatus]⟩
  · exact .inr (.inl hreset)
  · exact .inr (.inr ⟨v, rest, hi, rfl⟩)

/-- Settles O19: a step can only set the mark, and HostRace is the one fault it can hold. -/
theorem raceMarkNeverCleared : Obligations.RaceMarkNeverCleared := by
  rintro s t ⟨⟩ h hrec
  exact (step_recorded h).elim (·.trans hrec) id

/-- Settles O6: the step is the engine's turn, and an idle engine's turn does nothing. -/
theorem idleEngineDoesNothing : Obligations.IdleEngineDoesNothing := fun s rest hturn hb =>
  (step_engineTurn hturn).trans (engineTurn_of_idle (s := s.withInputs rest) hb)

end

section
/-! Reset and races (70 R270, R271, R275, R276): what a raced command's completion leaves, and what the reset event
leaves in the registers and in data memory, with and without a command in flight. -/

namespace Sys2Proof.Machine

/-! ### A raced command's completion (70 R275, R276; log 12) -/

/-- After a race a command's result is free. -/
theorem runHash_of_raced {s : State} (hraced : s.raced = true) (v : Variant) (term : Bool) :
    runHash v term s = s.completeRaced v term := by
  rw [runHash, if_pos hraced]

theorem completeRaced_mem (v : Variant) (term : Bool) (s : State) :
    (s.completeRaced v term).mem = Memory.forget s.draws s.mem s.snap.outBase.toNat (need v term) := rfl

/-! ### The reset event in the queue (70 R270) -/

theorem step_reset {s : State} {rest : List Input} (hi : s.inputs = .reset :: rest) :
    step s = .next (resetEngine (s.withInputs rest)) := step_of_cons hi

theorem Status.reset_word : Status.reset.word = 0 := by decide

/-- An idle engine's reset does not touch data memory. -/
theorem resetEngine_mem_of_idle {s : State} (hb : s.status.busy = false) : (resetEngine s).mem = s.mem := by
  rw [resetEngine_mem, if_neg (by simp [hb])]

/-! ### How many bytes an abandoned command leaves free (70 R271) -/

theorem Snapshot.abandonedSize_of_illegal {S : Snapshot} {e : DecodeError} (hd : decode S.cmd = .error e) :
    S.abandonedSize = 0 :=
  Nat.le_zero.mp (Snapshot.outputSize_error hd ▸ S.abandonedSize_le)

theorem Snapshot.abandonedSize_of_wraps {S : Snapshot} {i : Instr} (hd : decode S.cmd = .ok i)
    (hwrap : 2 ^ 64 < S.outBase.toNat + need i.variant i.term) : S.abandonedSize = 0 := by
  rw [Snapshot.abandonedSize, Snapshot.outputSize_ok hd, if_neg (Nat.not_le.mpr hwrap)]

theorem Snapshot.abandonedSize_of_fits {S : Snapshot} {i : Instr} (hd : decode S.cmd = .ok i)
    (hfits : S.outBase.toNat + need i.variant i.term ≤ 2 ^ 64) :
    S.abandonedSize = min S.outCap.toNat (need i.variant i.term) := by
  rw [Snapshot.abandonedSize, Snapshot.outputSize_ok hd, if_pos hfits]

/-- A reset that abandons no byte leaves data memory as it was. -/
theorem resetEngine_mem_of_abandonedSize_eq_zero {s : State} (h : s.snap.abandonedSize = 0) :
    (resetEngine s).mem = s.mem := by
  rw [resetEngine_mem, h]
  exact ite_self s.mem

/-- The byte at any address after a reset during a legal command whose output region fits: the top of the data space
cuts off none of the abandoned bytes. -/
theorem resetEngine_read_of_fits {s : State} {i : Instr} (hb : s.status.busy = true) (hm : s.mem.wf)
    (hd : decode s.snap.cmd = .ok i) (hfits : s.snap.outBase.toNat + need i.variant i.term ≤ 2 ^ 64) (a : Nat) :
    (resetEngine s).mem.read a =
      if s.snap.outBase.toNat ≤ a ∧ a < s.snap.outBase.toNat + min s.snap.outCap.toNat (need i.variant i.term)
      then Config.freeByte s.draws a else s.mem.read a := by
  rw [resetEngine_mem, if_pos hb, Snapshot.abandonedSize_of_fits hd hfits, Memory.read_forget hm.1]
  exact if_congr ⟨fun ⟨hlo, hhi, _⟩ => ⟨hlo, hhi⟩, fun ⟨hlo, hhi⟩ => ⟨hlo, hhi, by omega⟩⟩ rfl rfl

end Sys2Proof.Machine

open Sys2Proof Sys2Proof.Machine

/-- Settles O29: the raced command's completion, with its memory read byte by byte. -/
theorem racedCommandResultIsFree : Obligations.RacedCommandResultIsFree := by
  intro i s hm hraced
  have hkeeps := runHash_keeps i.variant i.term s
  rw [runHash_of_raced hraced] at hkeeps
  refine ⟨s.completeRaced i.variant i.term, ?_, rfl, rfl, rfl, hkeeps, fun a => ?_⟩
  · rw [exec_eq, runHash_of_raced hraced]
  · rw [completeRaced_mem, Memory.read_forget hm.1]

/-- Settles O49: what a reset leaves in the registers is the same in every state. -/
theorem resetEvent : Obligations.ResetEvent := by
  intro s rest hi
  obtain ⟨hstatus, hinfo, hmsgBase, hmsgLen, houtBase, houtCap, hrec, hplat, -, hinputs⟩ :=
    resetEngine_rest (s.withInputs rest)
  refine ⟨_, step_reset hi, ?_, hinfo, hmsgBase, hmsgLen, houtBase, houtCap, ?_, hrec, hplat, hinputs, fun hb => ?_⟩
  · rw [hstatus, Status.reset_word]
  · rw [State.doneSignal, hstatus]; rfl
  · exact resetEngine_mem_of_idle hb

/-- Settles O50: an illegal word and a wrapping output region abandon no byte. -/
theorem resetDuringCommand : Obligations.ResetDuringCommand := by
  intro s rest hi hb hm
  obtain ⟨hstatus, -⟩ := resetEngine_rest (s.withInputs rest)
  have hkept (h : s.snap.abandonedSize = 0) (a : Nat) :
      (resetEngine (s.withInputs rest)).mem.read a = s.mem.read a := by
    rw [resetEngine_mem_of_abandonedSize_eq_zero (s := s.withInputs rest) h, State.withInputs_mem]
  refine ⟨_, step_reset hi, hstatus, fun e hd a => ?_, fun i hd hwrap a => ?_, fun i hd hfits a => ?_⟩
  · exact hkept (Snapshot.abandonedSize_of_illegal hd) a
  · exact hkept (Snapshot.abandonedSize_of_wraps hd hwrap) a
  · exact resetEngine_read_of_fits (s := s.withInputs rest) hb hm hd hfits a

/-- Settles O48: the reset values of 70 R270 are the fields of `State.reset`. -/
theorem resetRegisters : Obligations.ResetRegisters :=
  ⟨Status.reset_word, rfl, rfl, rfl, rfl, rfl, rfl⟩

end

section
/-! The platform's parameters (92 open parameters; log 4). -/

open Sys2Proof Sys2Proof.Machine

/-- Settles O58: every mover's step leaves the platform where it found it. -/
theorem platformFixed : Obligations.PlatformFixed := by
  intro s t hstep
  obtain ⟨-, hplat⟩ := step_inputs_platform hstep
  exact hplat

end
